-- ==== Sys2Proof/Word.lean ====
section
/-! DEFINITION. The value types of the TTX block (00_scope.md rule R11): bytes, binary32 patterns,
timestamps, and the plain-data form of a byte-addressed space. -/

namespace Sys2Proof

/-- A `u8`. -/
abbrev Byte := BitVec 8

/-- An `f32`: the 32-bit IEEE-754 binary32 pattern itself (R10, R11). -/
abbrev F32 := BitVec 32

/-- A `u32` count of milliseconds, the answer `Now(t)` (R27, R303). -/
abbrev Stamp := BitVec 32

/-- A byte-addressed space as (address, byte) pairs. The canonical form lists addresses strictly
rising; an address that is not listed holds no value (R62). The operations are in
`Machine/Ops.lean`. -/
abbrev Mem := List Host.Cell

end Sys2Proof
end

