-- ==== Sys2Proof/Config.lean ====
section
/-! DEFINITION. The static configuration record of 00_scope.md rule R8, the constants the spec fixes,
and the free values the spec leaves open. -/

namespace Sys2Proof

/-- The two line profiles (R8 `PROFILE`, R98, R164). -/
inductive Profile where
  | manchFramed
  | bitSerial
deriving DecidableEq, Repr, Inhabited

/-- Who serialises the frame. The vendor-radio-driver transport is named by the source without a
behaviour; a configuration that asks for it is refused (R167). -/
inductive Transport where
  | lineCoder
  | vendorDriver
deriving DecidableEq, Repr, Inhabited

/-- Which wire payload is built. The text profile is not produced; a configuration that asks for it
is refused (R266). -/
inductive PayloadFormat where
  | binary
  | text
deriving DecidableEq, Repr, Inhabited

/-- The record `Cfg` of implementation parameters (R8): every parameter that an implementation or
a configuration may choose. The parameters that R8 calls fixed are the constants below. -/
structure Cfg where
  /-- `PROFILE` -/
  profile : Profile
  /-- the transport behind `PROFILE` (R166, R167) -/
  transport : Transport
  /-- the wire payload (R262, R266) -/
  payloadFormat : PayloadFormat
  /-- `K`, preamble length in bytes -/
  k : Nat
  /-- `PREAMBLE_BYTE` -/
  preambleByte : Byte
  /-- `SOF0` -/
  sof0 : Byte
  /-- `SOF1` -/
  sof1 : Byte
  /-- `STOP_BYTE` -/
  stopByte : Byte
  /-- `MANCH_MSB_FIRST` -/
  manchMsbFirst : Bool
  /-- `REPEAT`, frame copies in one transmission -/
  copies : Nat
  /-- `PAYLOAD_MAX` -/
  payloadMax : Nat
  /-- `DEVICE_ID` -/
  deviceId : Byte
  /-- `VBAT_FLOOR` -/
  vbatFloor : F32
  /-- `PERSIST_THRESHOLD` -/
  persistThreshold : F32
  /-- `ELAPSED_FALLBACK_WH` -/
  elapsedFallback : F32
  /-- `NV_OFFSET` -/
  nvOffset : Nat
  /-- `SLEEP_INTERVALS` -/
  sleepIntervals : Nat
  /-- `SER_START_LEVEL` -/
  serStartLevel : Bool
  /-- `BIT_PERIOD`, in an unspecified unit of time; read by `Event.twiceDuration` only (R14, R188) -/
  bitPeriod : Nat
  /-- `GUARD_TIME`, in the same unit -/
  guardTime : Nat
  /-- `TIMER_INTERVAL`, in the same unit -/
  timerInterval : Nat
deriving DecidableEq, Repr, Inhabited

/-- `ACC_MAX` = 1000000.0, fixed (R8). -/
abbrev Config.accMax : F32 := 0x49742400#32

/-- `MS_PER_HOUR` = 3600000.0 (R8, D14). -/
abbrev Config.msPerHour : F32 := 0x4A5BBA00#32

/-- 100.0, the value of `SCALE_V`, `SCALE_P`, `SCALE_E` and `SCALE_B` (R8). -/
abbrev Config.scale100 : F32 := 0x42C80000#32

/-- 1000.0, the value of `SCALE_I` (R8). -/
abbrev Config.scale1000 : F32 := 0x447A0000#32

/-- The example configuration `CFG_EX` of 95_test_vectors.md §0. The three durations, which `CFG_EX`
does not give and no rule reads, are 1, 100 and 8000 here. DESIGN CHOICE, unsafe: `State.reset` is the reset
of the block so configured; the reset for every other configuration is `State.resetWith`
(notes/assumptions/1.md). -/
def Cfg.example : Cfg where
  profile := .manchFramed
  transport := .lineCoder
  payloadFormat := .binary
  k := 2
  preambleByte := 0xAA#8
  sof0 := 0x2D#8
  sof1 := 0xD4#8
  stopByte := 0x55#8
  manchMsbFirst := true
  copies := 2
  payloadMax := 32
  deviceId := 0x01#8
  vbatFloor := 0x40000000#32
  persistThreshold := 0x3DCCCCCD#32
  elapsedFallback := 0x00000000#32
  nvOffset := 0
  sleepIntervals := 2
  serStartLevel := true
  bitPeriod := 1
  guardTime := 100
  timerInterval := 8000

/-- The answer `MeasResp(vrms, irms, vbat)` of agent `MEAS` (R130). -/
structure MeasResp where
  vrms : F32
  irms : F32
  vbat : F32
deriving DecidableEq, Repr, Inhabited

/-- The answer `NvResp(present, b0, b1, b2, b3)` of agent `NV` (R62). -/
structure NvResp where
  present : Bool
  b0 : Byte
  b1 : Byte
  b2 : Byte
  b3 : Byte
deriving DecidableEq, Repr, Inhabited

/-- Which arithmetic operation delivered a NaN. -/
inductive FloatOp where
  | add
  | sub
  | mul
  | div
deriving DecidableEq, Repr, Inhabited

/-- Free value (R337, U3, U4): the u32 that `CLOCK` answers to the n-th draw when no answer is
scripted. -/
opaque Config.freeNow : Nat → Stamp

/-- Free value (R337, U3, U21): what `MEAS` answers to the n-th draw when no answer is scripted. -/
opaque Config.freeMeas : Nat → MeasResp

/-- Free value (R63, U6): the four bytes, as one 32-bit pattern, that the store holds after a write cut
short by reset. -/
opaque Config.freeTorn : Nat → BitVec 32

/-- Free value (R10): sign and payload of the NaN that an operation delivers. -/
opaque Config.freeNaN : FloatOp → F32 → F32 → BitVec 32

end Sys2Proof
end

