-- ==== Sys2Proof/Machine/Float32.lean ====
section
/-! DEFINITION. The numerics of 00_scope.md rule R10: IEEE-754 binary32 on patterns, round to nearest
with ties to even, subnormals kept. A finite pattern's magnitude is a natural number of units of
2^-149; every operation computes its exact result in such units and rounds once. -/

namespace Sys2Proof.Machine

/-- The pattern without its sign bit. -/
def mag (x : F32) : Nat := x.toNat % 2 ^ 31

/-- The sign bit. -/
def sign (x : F32) : Bool := x.getLsbD 31

/-- The magnitude of an infinity; below it finite, above it a NaN. -/
abbrev infMag : Nat := 0x7F800000

def isnan (x : F32) : Bool := decide (infMag < mag x)

def isinf (x : F32) : Bool := decide (mag x = infMag)

/-- `isfinite(x)`: neither a NaN nor an infinity (R10). -/
def isfinite (x : F32) : Bool := decide (mag x < infMag)

/-- The number of units of 2^-149 that a finite magnitude stands for. -/
def unitsOf (m : Nat) : Nat :=
  if m < 2 ^ 23 then m else (2 ^ 23 + m % 2 ^ 23) * 2 ^ (m / 2 ^ 23 - 1)

/-- The signed value of a finite pattern, in units of 2^-149. -/
def value (x : F32) : Int :=
  if sign x then - (unitsOf (mag x) : Int) else (unitsOf (mag x) : Int)

/-- A pattern from its sign and magnitude. -/
def pack (neg : Bool) (m : Nat) : F32 := BitVec.ofNat 32 (if neg then 2 ^ 31 + m else m)

/-- The magnitude nearest to `num / den` units of 2^-149, ties to even, an infinity past the
largest finite magnitude (R10). The exponent step `t` is the one at which the quotient has at most
24 bits. -/
def roundMag (num den : Nat) : Nat :=
  let t := Nat.log2 (num / den) - 23
  let d := den * 2 ^ t
  let m := num / d
  let r := num % d
  let m' := if d < 2 * r ∨ (2 * r = d ∧ m % 2 = 1) then m + 1 else m
  min (t * 2 ^ 23 + m') infMag

/-- The quiet NaN an operation delivers. Its sign and its lower 22 payload bits are a free value
(R10 says "default NaN" and gives no pattern; notes/assumptions/7.md). -/
def nanOf (op : FloatOp) (a b : F32) : F32 :=
  pack ((Config.freeNaN op a b).getLsbD 31) (0x7FC00000 + (Config.freeNaN op a b).toNat % 2 ^ 22)

/-- The pattern with its sign bit inverted. -/
def fneg (x : F32) : F32 := pack (!sign x) (mag x)

/-- `fabs` clears the sign bit (R10). -/
def fabs (x : F32) : F32 := pack false (mag x)

/-- `fadd` (R10). An exact sum of zero is +0, but (-0) + (-0) is -0. -/
def fadd (a b : F32) : F32 :=
  if isnan a || isnan b then nanOf .add a b
  else if isinf a then (if isinf b && (sign a != sign b) then nanOf .add a b else a)
  else if isinf b then b
  else
    let z := value a + value b
    if z = 0 then pack (sign a && sign b) 0
    else pack (decide (z < 0)) (roundMag z.natAbs 1)

/-- `fsub` (R10): the sum with the second operand's sign inverted. -/
def fsub (a b : F32) : F32 :=
  if isnan a || isnan b then nanOf .sub a b else fadd a (fneg b)

/-- `fmul` (R10). -/
def fmul (a b : F32) : F32 :=
  if isnan a || isnan b then nanOf .mul a b
  else if isinf a || isinf b then
    (if mag a = 0 ∨ mag b = 0 then nanOf .mul a b else pack (sign a != sign b) infMag)
  else pack (sign a != sign b) (roundMag (unitsOf (mag a) * unitsOf (mag b)) (2 ^ 149))

/-- `fdiv` (R10). -/
def fdiv (a b : F32) : F32 :=
  if isnan a || isnan b then nanOf .div a b
  else if isinf a then (if isinf b then nanOf .div a b else pack (sign a != sign b) infMag)
  else if isinf b then pack (sign a != sign b) 0
  else if mag b = 0 then
    (if mag a = 0 then nanOf .div a b else pack (sign a != sign b) infMag)
  else pack (sign a != sign b) (roundMag (unitsOf (mag a) * 2 ^ 149) (unitsOf (mag b)))

/-- The order key of a pattern that is no NaN: both zeros are 0, magnitudes are ordered as their
values are, infinities at the ends. -/
def key (x : F32) : Int := if sign x then - (mag x : Int) else (mag x : Int)

/-- `flt` (R10): false when an operand is a NaN. -/
def flt (a b : F32) : Bool := !isnan a && !isnan b && decide (key a < key b)

/-- `fle` (R10): false when an operand is a NaN. -/
def fle (a b : F32) : Bool := !isnan a && !isnan b && decide (key a ≤ key b)

/-- `fge` (R10): false when an operand is a NaN. -/
def fge (a b : F32) : Bool := !isnan a && !isnan b && decide (key b ≤ key a)

/-- `u32_to_f32` (R10). -/
def u32ToF32 (u : BitVec 32) : F32 := pack false (roundMag (u.toNat * 2 ^ 149) 1)

/-- `trunc_i32(p)` (R260), for `-2^31 < p < 2^31`: the fraction is discarded, toward zero; the
result as a two's-complement pattern. -/
def truncI32 (p : F32) : BitVec 32 :=
  let n := BitVec.ofNat 32 (unitsOf (mag p) / 2 ^ 149)
  if sign p then -n else n

end Sys2Proof.Machine
end

