-- ==== Sys2Proof/Syntax.lean ====
section
/-! DEFINITION. The instructions: one constructor per row of spec/opcode_table.json, in the table's
order. The operands are the fields the row's encoding string names (30_encoding.md). -/

namespace Sys2Proof

/-- The encodings of 30_encoding.md that a row of the table belongs to (the table's column
`format`; `FRAME` is split by the place of its three bytes in the frame, R90). -/
inductive Format where
  /-- `SEQ`: the 4-bit code of register `seq` (R120, R121) -/
  | seq
  /-- `IRQ`: the one-bit input `Expiry` on port `timer_exp` (R291) -/
  | irq
  /-- `LINE_MANCH_CELL`: the two half-cells of a Manchester bit cell (R95) -/
  | manchCell
  /-- `LINE_MANCH_BYTE`: the 16 half-cells of one byte (R159) -/
  | manchByte
  /-- `LINE_SERIAL_BYTE`: the ten bit cells of one byte (R96, R163) -/
  | serialByte
  /-- `PAYLOAD`: the 21 payload bytes (R93) -/
  | payload
  /-- `NV`: the persisted accumulator (R99) -/
  | nv
  /-- `FRAME`, the three bytes after the preamble (R90) -/
  | frameHead
  /-- `FRAME`, the three bytes after the payload (R90) -/
  | frameTail
deriving DecidableEq, Repr, Inhabited

/-- One constructor per row of the opcode table. The ten sequencer codes and the two reserved
ranges are selected by `seq`, `isr` by the input `Expiry`; the other nine rows are the words of the
line code, the payload, the store and the frame, which the sequencer steps send or lay down
(30_encoding.md rules R90 to R99). -/
inductive Instr where
  /-- `B_LOAD`, code 0x0 (R221) -/
  | bLoad
  /-- `M_MEAS`, code 0x1 (R222) -/
  | mMeas
  /-- `M_INTEG`, code 0x2 (R223) -/
  | mInteg
  /-- `M_GATE`, code 0x3 (R224) -/
  | mGate
  /-- `T_BUILD`, code 0x4 (R225) -/
  | tBuild
  /-- `T_CELL`, code 0x5 (R182) -/
  | tCell
  /-- `T_END`, code 0x6 (R184) -/
  | tEnd
  /-- `P_CHECK`, code 0x7 (R228) -/
  | pCheck
  /-- `S_ARM`, code 0x8 (R229) -/
  | sArm
  /-- `S_HALT`, code 0x9 (R230) -/
  | sHalt
  /-- `SEQ_RESERVED_A_B`, code 101x (R122) -/
  | seqReservedAB (x : BitVec 1)
  /-- `SEQ_RESERVED_C_F`, code 11xx (R122) -/
  | seqReservedCF (x : BitVec 2)
  /-- `ISR`, the timer-expiry step (R291) -/
  | isr
  /-- `MANCH1`, the bit cell of a 1 (R158) -/
  | manch1
  /-- `MANCH0`, the bit cell of a 0 (R158) -/
  | manch0
  /-- `MANCH_BYTE_MSB`, one byte, most significant bit first (R159) -/
  | manchByteMsb (v : Byte)
  /-- `MANCH_BYTE_LSB`, one byte, least significant bit first (R159) -/
  | manchByteLsb (v : Byte)
  /-- `SER_BYTE`, one byte of the bit-serial profile (R163) -/
  | serByte (v : Byte)
  /-- `PAYLOAD_BIN`: device identifier and the five `i32` fields (R93, R262) -/
  | payloadBin (d : Byte) (v i p e b : BitVec 32)
  /-- `NV_F32`: the persisted pattern `bits(acc)` (R99) -/
  | nvF32 (u : BitVec 32)
  /-- `FRAME_HEAD`: `SOF0`, `SOF1`, length byte (R90) -/
  | frameHead (s t l : Byte)
  /-- `FRAME_TAIL`: CRC16, stop byte (R90) -/
  | frameTail (crc : BitVec 16) (p : Byte)
deriving DecidableEq, Repr, Inhabited

end Sys2Proof
end

