-- ==== Sys2Proof/WellFormed.lean ====
section
/-! DEFINITION. Well-formedness: of a configuration (00_scope.md rule R9) and of an instruction under a
configuration (30_encoding.md). -/

namespace Sys2Proof

open Machine

/-- R9, with the ranges of R8's column `type`; the transport and the payload format that R167 and
R266 refuse are not well-formed. -/
def Cfg.wf (c : Cfg) : Bool :=
  decide (1 ≤ c.copies) && decide (c.copies ≤ 255)
    && decide (1 ≤ c.sleepIntervals) && decide (c.sleepIntervals ≤ 255)
    && decide (21 ≤ c.payloadMax) && decide (c.payloadMax ≤ 255)
    && decide (c.k ≤ 255)
    && isfinite c.persistThreshold && flt 0#32 c.persistThreshold
    && isfinite c.vbatFloor
    && isfinite c.elapsedFallback && fge c.elapsedFallback 0#32
    && decide (c.transport = .lineCoder) && decide (c.payloadFormat = .binary)

/-- Whether a word of the table is one that the block configured by `c` uses: the Manchester and
frame words belong to profile `MANCH_FRAMED` and the serial word to `BIT_SERIAL` (R98), the bit
order is `MANCH_MSB_FIRST` (R159), the constant fields hold the configured constants (R90, R93), and
the length byte is at most `PAYLOAD_MAX` (R92, R123). -/
def Instr.wellFormed (c : Cfg) : Instr → Bool
  | .bLoad => true
  | .mMeas => true
  | .mInteg => true
  | .mGate => true
  | .tBuild => true
  | .tCell => true
  | .tEnd => true
  | .pCheck => true
  | .sArm => true
  | .sHalt => true
  | .seqReservedAB _ => true
  | .seqReservedCF _ => true
  | .isr => true
  | .manch1 => decide (c.profile = .manchFramed)
  | .manch0 => decide (c.profile = .manchFramed)
  | .manchByteMsb _ => decide (c.profile = .manchFramed) && c.manchMsbFirst
  | .manchByteLsb _ => decide (c.profile = .manchFramed) && !c.manchMsbFirst
  | .serByte _ => decide (c.profile = .bitSerial)
  | .payloadBin d _ _ _ _ _ => decide (d = c.deviceId)
  | .nvF32 _ => true
  | .frameHead s t l =>
    decide (c.profile = .manchFramed) && decide (s = c.sof0) && decide (t = c.sof1)
      && decide (l.toNat ≤ c.payloadMax)
  | .frameTail _ p => decide (c.profile = .manchFramed) && decide (p = c.stopByte)

end Sys2Proof
end

