-- ==== Sys2Proof/Decode.lean ====
section
/-! DEFINITION. Decoding and encoding of the table's rows (30_encoding.md). A word is the list of the
bits of its row's encoding string, left to right: for `seq` the most significant bit first, on the line
the half-cell (or bit cell) sent first, in a record the first byte first with its most significant bit
first. -/

namespace Sys2Proof

/-! ### The codes of `seq` (R120) -/

@[simp] abbrev Seq.bLoad : BitVec 4 := 0x0#4
@[simp] abbrev Seq.mMeas : BitVec 4 := 0x1#4
@[simp] abbrev Seq.mInteg : BitVec 4 := 0x2#4
@[simp] abbrev Seq.mGate : BitVec 4 := 0x3#4
@[simp] abbrev Seq.tBuild : BitVec 4 := 0x4#4
@[simp] abbrev Seq.tCell : BitVec 4 := 0x5#4
@[simp] abbrev Seq.tEnd : BitVec 4 := 0x6#4
@[simp] abbrev Seq.pCheck : BitVec 4 := 0x7#4
@[simp] abbrev Seq.sArm : BitVec 4 := 0x8#4
@[simp] abbrev Seq.sHalt : BitVec 4 := 0x9#4

/-! ### Bits -/

/-- The bits of a value, most significant first. -/
def toBits (n : Nat) (v : BitVec n) : List Bool :=
  (List.range n).map fun i => v.getLsbD (n - 1 - i)

/-- The value of bits, most significant first. -/
def ofBits (n : Nat) (bs : List Bool) : BitVec n :=
  BitVec.ofNat n (bs.foldl (fun a b => 2 * a + b.toNat) 0)

/-- The four bytes of a 32-bit list in the opposite order: least significant byte first (R65). -/
def swapBytes (bs : List Bool) : List Bool :=
  (bs.drop 24).take 8 ++ (bs.drop 16).take 8 ++ (bs.drop 8).take 8 ++ bs.take 8

/-- The first half-cells of Manchester bit cells; `none` at a pair `00` or `11` (R95). -/
def cellBits : List Bool → Option (List Bool)
  | [] => some []
  | [_] => none
  | a :: b :: rest => if a = b then none else (cellBits rest).map (a :: ·)

/-- The two half-cells of each bit: the bit, then its inverse (R95). -/
def pairCells (bs : List Bool) : List Bool := bs.flatMap fun b => [b, !b]

/-! ### Decoding -/

/-- Why a word is rejected. -/
inductive DecodeError where
  /-- the word has not the length its format has -/
  | length
  /-- the one-bit input is 0: no `Expiry` is delivered (R291) -/
  | noExpiry
  /-- the format belongs to the other profile (R98) -/
  | notInProfile
  /-- a Manchester bit cell with two equal half-cells (R95) -/
  | codeViolation
  /-- the start or the stop bit is at the wrong level (R96) -/
  | startStop
  /-- payload index 0 is not `DEVICE_ID` (R93) -/
  | foreignDevice
  /-- the bytes are not `SOF0`, `SOF1` (R90) -/
  | noFrame
  /-- the length byte exceeds `PAYLOAD_MAX` (R123) -/
  | badLength
  /-- the last byte is not `STOP_BYTE` (R90) -/
  | noStop
deriving DecidableEq, Repr, Inhabited

/-- R121: total on the 4 bits of `seq`; codes 0xA to 0xF are the two reserved rows (R122). -/
def decodeSeq (q : BitVec 4) : Instr :=
  match q.toNat with
  | 0 => .bLoad
  | 1 => .mMeas
  | 2 => .mInteg
  | 3 => .mGate
  | 4 => .tBuild
  | 5 => .tCell
  | 6 => .tEnd
  | 7 => .pCheck
  | 8 => .sArm
  | 9 => .sHalt
  | 10 => .seqReservedAB 0#1
  | 11 => .seqReservedAB 1#1
  | _ => .seqReservedCF (q.extractLsb' 0 2)

/-- The word of a Manchester byte (R159). -/
def decodeManchByte (c : Cfg) (bs : List Bool) : Except DecodeError Instr :=
  if bs.length ≠ 16 then .error .length
  else if c.profile ≠ .manchFramed then .error .notInProfile
  else match cellBits bs with
    | none => .error .codeViolation
    | some ds =>
      if c.manchMsbFirst then .ok (.manchByteMsb (ofBits 8 ds))
      else .ok (.manchByteLsb (ofBits 8 ds.reverse))

/-- The word of a bit-serial byte (R96, R163). -/
def decodeSerial (c : Cfg) (bs : List Bool) : Except DecodeError Instr :=
  if bs.length ≠ 10 then .error .length
  else if c.profile ≠ .bitSerial then .error .notInProfile
  else if bs.take 1 ≠ [c.serStartLevel] ∨ bs.drop 9 ≠ [!c.serStartLevel] then .error .startStop
  else .ok (.serByte (ofBits 8 ((bs.drop 1).take 8).reverse))

/-- The payload (R93, R94). -/
def decodePayload (c : Cfg) (bs : List Bool) : Except DecodeError Instr :=
  if bs.length ≠ 168 then .error .length
  else if ofBits 8 (bs.take 8) ≠ c.deviceId then .error .foreignDevice
  else
    let field (n : Nat) : BitVec 32 := ofBits 32 (swapBytes ((bs.drop n).take 32))
    .ok (.payloadBin (ofBits 8 (bs.take 8)) (field 8) (field 40) (field 72) (field 104) (field 136))

/-- The three bytes after the preamble (R90). -/
def decodeHead (c : Cfg) (bs : List Bool) : Except DecodeError Instr :=
  if bs.length ≠ 24 then .error .length
  else if c.profile ≠ .manchFramed then .error .notInProfile
  else
    let s : Byte := ofBits 8 (bs.take 8)
    let t : Byte := ofBits 8 ((bs.drop 8).take 8)
    let l : Byte := ofBits 8 (bs.drop 16)
    if s ≠ c.sof0 ∨ t ≠ c.sof1 then .error .noFrame
    else if c.payloadMax < l.toNat then .error .badLength
    else .ok (.frameHead s t l)

/-- The three bytes after the payload (R90). -/
def decodeTail (c : Cfg) (bs : List Bool) : Except DecodeError Instr :=
  if bs.length ≠ 24 then .error .length
  else if c.profile ≠ .manchFramed then .error .notInProfile
  else
    let p : Byte := ofBits 8 (bs.drop 16)
    if p ≠ c.stopByte then .error .noStop
    else .ok (.frameTail (ofBits 16 (bs.take 16)) p)

/-- The instruction a word of a format stands for, under a configuration. -/
def decode (c : Cfg) : Format → List Bool → Except DecodeError Instr
  | .seq, bs => if bs.length ≠ 4 then .error .length else .ok (decodeSeq (ofBits 4 bs))
  | .irq, bs =>
    if bs = [true] then .ok .isr
    else if bs = [false] then .error .noExpiry
    else .error .length
  | .manchCell, bs =>
    if bs.length ≠ 2 then .error .length
    else if c.profile ≠ .manchFramed then .error .notInProfile
    else if bs = [true, false] then .ok .manch1
    else if bs = [false, true] then .ok .manch0
    else .error .codeViolation
  | .manchByte, bs => decodeManchByte c bs
  | .serialByte, bs => decodeSerial c bs
  | .payload, bs => decodePayload c bs
  | .nv, bs => if bs.length ≠ 32 then .error .length else .ok (.nvF32 (ofBits 32 (swapBytes bs)))
  | .frameHead, bs => decodeHead c bs
  | .frameTail, bs => decodeTail c bs

/-! ### Encoding -/

/-- The format and the word of an instruction, from the encoding strings of the table. -/
def encode (c : Cfg) : Instr → Format × List Bool
  | .bLoad => (.seq, toBits 4 Seq.bLoad)
  | .mMeas => (.seq, toBits 4 Seq.mMeas)
  | .mInteg => (.seq, toBits 4 Seq.mInteg)
  | .mGate => (.seq, toBits 4 Seq.mGate)
  | .tBuild => (.seq, toBits 4 Seq.tBuild)
  | .tCell => (.seq, toBits 4 Seq.tCell)
  | .tEnd => (.seq, toBits 4 Seq.tEnd)
  | .pCheck => (.seq, toBits 4 Seq.pCheck)
  | .sArm => (.seq, toBits 4 Seq.sArm)
  | .sHalt => (.seq, toBits 4 Seq.sHalt)
  | .seqReservedAB x => (.seq, [true, false, true] ++ toBits 1 x)
  | .seqReservedCF x => (.seq, [true, true] ++ toBits 2 x)
  | .isr => (.irq, [true])
  | .manch1 => (.manchCell, [true, false])
  | .manch0 => (.manchCell, [false, true])
  | .manchByteMsb v => (.manchByte, pairCells (toBits 8 v))
  | .manchByteLsb v => (.manchByte, pairCells (toBits 8 v).reverse)
  | .serByte v =>
    (.serialByte, [c.serStartLevel] ++ (toBits 8 v).reverse ++ [!c.serStartLevel])
  | .payloadBin d v i p e b =>
    (.payload, toBits 8 d ++ swapBytes (toBits 32 v) ++ swapBytes (toBits 32 i)
      ++ swapBytes (toBits 32 p) ++ swapBytes (toBits 32 e) ++ swapBytes (toBits 32 b))
  | .nvF32 u => (.nv, swapBytes (toBits 32 u))
  | .frameHead s t l => (.frameHead, toBits 8 s ++ toBits 8 t ++ toBits 8 l)
  | .frameTail crc p => (.frameTail, toBits 16 crc ++ toBits 8 p)

/-- The number of bits of a word of a format (the length of the table's encoding strings). -/
def Format.width : Format → Nat
  | .seq => 4
  | .irq => 1
  | .manchCell => 2
  | .manchByte => 16
  | .serialByte => 10
  | .payload => 168
  | .nv => 32
  | .frameHead => 24
  | .frameTail => 24

/-- The instruction that the decoder reads from the table's word `w` of `nbits` bits. The one word
the block fetches is the 4-bit code of `seq` (R121), which the table gives in one byte; a byte whose
upper four bits are not zero is no code of `seq`. The words of the other formats are not fetched
(notes/assumptions/10.md). -/
def decodeTableWord (nbits w : Nat) : Option Instr :=
  if nbits ≤ 8 ∧ w < 16 then
    (decode Cfg.example .seq (toBits 4 (BitVec.ofNat 4 w))).toOption
  else none

end Sys2Proof
end

