-- ==== Sys2Proof/Machine/State.lean ====
section
/-! DEFINITION. The state of the TTX block (10_state.md), its events, faults and refusals, and its
state after reset. -/

namespace Sys2Proof.Machine

/-- The alphabet of the output trace (R13). -/
inductive Event where
  /-- `Half(l)`: the line is held at level `l` for one half-cell -/
  | half (l : Bool)
  /-- `Idle`: end of a frame copy, the line is de-asserted -/
  | idle
  /-- `Guard`: the line stays de-asserted for `GUARD_TIME` -/
  | guard
  /-- `MeasReq` -/
  | measReq
  /-- `NvRd(off, n)` -/
  | nvRd (off n : Nat)
  /-- `NvWr(off, b0, b1, b2, b3)` -/
  | nvWr (off : Nat) (b0 b1 b2 b3 : Byte)
  /-- `Diag(c)` -/
  | diag (c : Nat)
  /-- `ArmTimer` -/
  | armTimer
  /-- `Halt` -/
  | halt
  /-- `Wake` -/
  | wake
deriving DecidableEq, Repr, Inhabited

/-- What happens next at the block (R7, R337): a step of `MAIN`, an expiry served by `ISR`, the
power-on reset, or the platform's completion of a store write. -/
inductive Move where
  | main
  | expiry
  | powerOn
  | nvDone
deriving DecidableEq, Repr, Inhabited

/-- Why the machine stops with a fault. None is reachable from reset (R37, R122, R123). -/
inductive Fault where
  /-- `SeqReserved` (R122): raised by a step of `MAIN` when `seq` holds one of 0xA to 0xF. Safe: the
  spec gives such a state no step. -/
  | seqReserved
  /-- `CounterRange` (R123): raised by a step of `MAIN` when a counter is out of its range. Safe: the
  spec gives such a state no meaning. -/
  | counterRange
  /-- Read of `pbuf` at an index it does not have (R33, R60): raised by `T_CELL`, and only where `pbuf` is
  shorter than `PAYLOAD_MAX`, which no rule makes it. Safe: there is no such byte. -/
  | noSuchPayloadByte
deriving DecidableEq, Repr, Inhabited

/-- Why the model has no meaning to give. -/
inductive Refusal where
  /-- An instruction without a meaning yet; no arm of `exec` answers it. Safe. -/
  | notModelled (mnemonic : String)
  /-- The configuration is not well-formed (R9, R167, R266): raised by every meaning but the
  reserved codes'. Safe: the rules give such a configuration no meaning. -/
  | configIllFormed
  /-- The fetched word decodes to no instruction: raised by `step`. Safe; no fetched word is
  rejected (R121). -/
  | undecodable (e : DecodeError)
deriving DecidableEq, Repr, Inhabited

/-- Everything the block holds (R39, R50) and, apart from it, what its environment will do. -/
structure State where
  /-- the static configuration (R8) -/
  cfg : Cfg
  /-- sequencer code (R20) -/
  seq : BitVec 4
  /-- index of the frame copy (R21) -/
  txRep : BitVec 8
  /-- index of the byte in the frame or stream (R21) -/
  txIdx : BitVec 10
  /-- index of the bit cell in the byte (R21) -/
  txBit : BitVec 4
  /-- which half of the bit cell (R21) -/
  txHalf : Bool
  /-- completed sub-sleep intervals (R22) -/
  sleepCnt : BitVec 8
  /-- set by `ISR`, cleared by `S_ARM` (R28) -/
  wakeFlag : Bool
  /-- the main flow is in the low-power halt (R29) -/
  halted : Bool
  /-- undervoltage in the current cycle (R30) -/
  uv : Bool
  /-- result of the last `maybePersist` (R31) -/
  didWrite : Bool
  /-- level of the output line (R32) -/
  line : Bool
  /-- number of valid payload bytes (R33) -/
  plen : BitVec 8
  /-- payload buffer, `PAYLOAD_MAX` bytes, byte 0 first (R33, R60) -/
  pbuf : List Byte
  /-- CRC16 of the frame (R34) -/
  crcReg : BitVec 16
  /-- RMS voltage (R23) -/
  vrms : F32
  /-- RMS current (R23) -/
  irms : F32
  /-- battery voltage (R23) -/
  vbat : F32
  /-- power of the current cycle (R24) -/
  power : F32
  /-- energy accumulator (R25) -/
  acc : F32
  /-- persistence watermark (R26) -/
  wm : F32
  /-- timestamp of the previous integration (R27) -/
  lastTs : Stamp
  /-- what `NvWr` stored in the non-volatile store (R36 (a), R64) -/
  nv : Mem
  /-- an `NvWr` has been emitted and the platform has not completed the write (R63, R332) -/
  nvInFlight : Bool
  /-- the events emitted so far, oldest first (R12, R13) -/
  trace : List Event
  /-- the model's own: the next moves, first one first; see `Machine.nextMove` for the empty list -/
  agenda : List Move
  /-- the model's own: scripted answers of `NV`; an entry `none` is a step at which it does not answer -/
  nvIn : List (Option NvResp)
  /-- the model's own: scripted answers of `CLOCK` -/
  nowIn : List (Option Stamp)
  /-- the model's own: scripted answers of `MEAS` -/
  measIn : List (Option MeasResp)
  /-- the model's own: index of the next free value -/
  draws : Nat
deriving DecidableEq, Repr, Inhabited

/-- The block after reset under configuration `c`, its store never written (R39, R330). The
registers that R39 gives no value, the bytes of `pbuf` among them, hold zero: DESIGN CHOICE, unsafe (notes/assumptions/2.md). -/
def State.resetWith (c : Cfg) : State where
  cfg := c
  seq := Seq.bLoad
  txRep := 0#8
  txIdx := 0#10
  txBit := 0#4
  txHalf := false
  sleepCnt := 0#8
  wakeFlag := false
  halted := false
  uv := false
  didWrite := false
  line := false
  plen := 0#8
  pbuf := List.replicate c.payloadMax 0#8
  crcReg := 0#16
  vrms := 0#32
  irms := 0#32
  vbat := 0#32
  power := 0#32
  acc := 0#32
  wm := 0#32
  lastTs := 0#32
  nv := []
  nvInFlight := false
  trace := []
  agenda := []
  nvIn := []
  nowIn := []
  measIn := []
  draws := 0

/-- The machine right after reset, under the example configuration (notes/assumptions/1.md). -/
def State.reset : State := State.resetWith Cfg.example

end Sys2Proof.Machine
end

