-- ==== Sys2Proof/Machine/Ops.lean ====
section
/-! DEFINITION. The shared operations: byte-addressed spaces, the event trace and the line, the error
classes, interrupt entry, reset, the non-volatile store, the draws, and what moves next. -/

namespace Sys2Proof.Machine

/-! ### Byte-addressed spaces (20_memory.md R60) -/

/-- Byte `i` of the payload buffer; `none` past its end (R33). -/
def payloadByte (s : State) (i : Nat) : Option Byte := s.pbuf[i]?

/-- The byte of the store at an address; `none` where nothing is stored (R62). -/
def readByte : Mem → Nat → Option Byte
  | [], _ => none
  | (b, v) :: m, a => if a = b then some v else readByte m a

/-- Stores a byte, keeping the addresses in rising order. -/
def writeByte : Mem → Nat → Byte → Mem
  | [], a, v => [(a, v)]
  | (b, w) :: m, a, v =>
    if a < b then (a, v) :: (b, w) :: m
    else if a = b then (a, v) :: m
    else (b, w) :: writeByte m a v

/-- Stores bytes at consecutive addresses. -/
def writeBytes : Mem → Nat → List Byte → Mem
  | m, _, [] => m
  | m, a, b :: bs => writeBytes (writeByte m a b) (a + 1) bs

/-- The canonical form: addresses strictly rising. No entry equals what an unlisted address reads
as, since that is no value. -/
def memWf : Mem → Bool
  | [] => true
  | [_] => true
  | x :: y :: m => decide (x.1 < y.1) && memWf (y :: m)

/-- Byte `i` of a 32-bit value, byte 0 the least significant (R65, R94, R99). -/
def byteOf (u : BitVec 32) (i : Nat) : Byte := u.extractLsb' (8 * i) 8

/-- The four bytes of a 32-bit value, least significant first (R65). -/
def leBytes (u : BitVec 32) : List Byte := [byteOf u 0, byteOf u 1, byteOf u 2, byteOf u 3]

/-- The 32-bit value of four bytes, least significant first (R99, R200). -/
def leWord (b0 b1 b2 b3 : Byte) : BitVec 32 :=
  b0.setWidth 32 ||| b1.setWidth 32 <<< 8 ||| b2.setWidth 32 <<< 16 ||| b3.setWidth 32 <<< 24

/-! ### Trace and line -/

/-- `emit E` (R12). -/
def emit (s : State) (e : Event) : State := { s with trace := s.trace ++ [e] }

/-- The line is driven to a level for one half-cell (R13, R182). -/
def drive (s : State) (l : Bool) : State := emit { s with line := l } (.half l)

/-- The line is driven through successive half-cells. -/
def driveAll : State → List Bool → State
  | s, [] => s
  | s, l :: ls => driveAll (drive s l) ls

/-! ### Error classes (60_exceptions.md R280, R281)

There is no trap mechanism: a class is a branch of the rule that raises it, and all that raising it
does beyond that branch is its diagnostic indication. -/

/-- The four classes (R280). -/
inductive ErrorClass where
  | corruptPersisted
  | undervoltage
  | txTiming
  | nonPositiveElapsed
deriving DecidableEq, Repr, Inhabited

/-- The code of a class in `Diag(c)` (R280). -/
def classCode : ErrorClass → Nat
  | .corruptPersisted => 1
  | .undervoltage => 2
  | .txTiming => 3
  | .nonPositiveElapsed => 4

/-- `raise C`: class 2 is signalled by `Diag(2)` (R283); of the others nothing is recorded (R281,
R282, R284, R285). -/
def raise (s : State) (c : ErrorClass) : State :=
  match c with
  | .undervoltage => emit s (.diag (classCode c))
  | .corruptPersisted => s
  | .txTiming => s
  | .nonPositiveElapsed => s

/-! ### The interrupt, the reset, the store's completion -/

/-- The whole of interrupt entry (R291, R297): the flag is set, nothing is saved, no mode changes. There
is no return operation (R298). -/
def takeExpiry (s : State) : State := { s with wakeFlag := true }

/-- The power-on reset (R330): every register at its reset value, no event, the configuration and the
store as they were, but for a store write cut short, whose four bytes become free values (R63,
U6). What the environment will do is not the block's to reset. -/
def powerOnReset (s : State) : State :=
  { State.resetWith s.cfg with
    nv :=
      if s.nvInFlight then writeBytes s.nv s.cfg.nvOffset (leBytes (Config.freeTorn s.draws))
      else s.nv
    trace := s.trace
    agenda := s.agenda
    nvIn := s.nvIn
    nowIn := s.nowIn
    measIn := s.measIn
    draws := s.draws + 1 }

/-- The platform completes the store write (R63, R64). -/
def nvComplete (s : State) : State := { s with nvInFlight := false }

/-! ### The non-volatile store -/

/-- What `NV` answers by its duty (R62, R64, R334 (b)): the four bytes stored, or `present = 0` when
they have not been written; the bytes of such an answer are read by no rule. -/
def storeAnswer (s : State) : NvResp :=
  match readByte s.nv s.cfg.nvOffset, readByte s.nv (s.cfg.nvOffset + 1),
    readByte s.nv (s.cfg.nvOffset + 2), readByte s.nv (s.cfg.nvOffset + 3) with
  | some b0, some b1, some b2, some b3 => ⟨true, b0, b1, b2, b3⟩
  | _, _, _, _ => ⟨false, 0#8, 0#8, 0#8, 0#8⟩

/-- `NvWrite(NV_OFFSET, 4, bytes of u)` (R63): the four bytes change together at the `NvWr` event. -/
def nvWrite (s : State) (u : BitVec 32) : State :=
  emit { s with nv := writeBytes s.nv s.cfg.nvOffset (leBytes u), nvInFlight := true }
    (.nvWr s.cfg.nvOffset (byteOf u 0) (byteOf u 1) (byteOf u 2) (byteOf u 3))

/-! ### Draws (R12 `draw X`, R337) -/

/-- Whether an answer is there: a scripted one, or, with nothing scripted, a free value. -/
def answered {α : Type} : List (Option α) → Bool
  | none :: _ => false
  | some _ :: _ => true
  | [] => true

/-- The answer drawn: the scripted one, else the one given. -/
def answerOr {α : Type} (unscripted : α) : List (Option α) → α
  | some a :: _ => a
  | none :: _ => unscripted
  | [] => unscripted

/-- The script after a step at which the agent did not answer. -/
def skipUnanswered {α : Type} : List (Option α) → List (Option α)
  | none :: q => q
  | some a :: q => some a :: q
  | [] => []

/-! ### What moves next -/

/-- The next move: the agenda's first; with no agenda `MAIN`, or the expiry that `TIMER` owes after
`ArmTimer` (R336 (d)) where `MAIN` has no enabled step (R231). DESIGN CHOICE
(notes/assumptions/5.md). -/
def nextMove (s : State) : Move :=
  match s.agenda with
  | m :: _ => m
  | [] => if s.seq = Seq.sHalt ∧ s.wakeFlag = false then .expiry else .main

/-- The move is taken off the agenda. -/
def popAgenda (s : State) : State := { s with agenda := s.agenda.tail }

/-- The word `MAIN` fetches: the four bits of `seq` (R121). -/
def seqWord (s : State) : List Bool := toBits 4 s.seq

/-! ### The configuration guard -/

/-- R9: a configuration that is not well-formed is refused. -/
def configured (s : State) (k : State → Host.Outcome State Fault Refusal) :
    Host.Outcome State Fault Refusal :=
  if s.cfg.wf then k s else .refused .configIllFormed

end Sys2Proof.Machine
end

