-- ==== Sys2Proof/Machine/Codec.lean ====
section
/-! DEFINITION. The frame codec's pure functions (41_frame_codec.md) and the fixed-point conversion and
layout of the wire payload (45_payload.md). -/

namespace Sys2Proof.Machine

/-! ### CRC-16 (R150) -/

/-- One shift of the CRC register: polynomial 0x1021, the bit shifted out of bit 15 discarded. -/
def crcShift (c : BitVec 16) : BitVec 16 :=
  if c.getLsbD 15 then (c <<< 1) ^^^ 0x1021#16 else c <<< 1

/-- The byte enters at the top of the register, then eight shifts. -/
def crcByte (c : BitVec 16) (b : Byte) : BitVec 16 :=
  let c0 := c ^^^ (b.setWidth 16 <<< 8)
  crcShift (crcShift (crcShift (crcShift (crcShift (crcShift (crcShift (crcShift c0)))))))

/-- `crc16(B)`: initial value 0xFFFF, no final XOR. -/
def crc16 (bs : List Byte) : BitVec 16 := bs.foldl crcByte 0xFFFF#16

/-- `c[15:8]`. -/
def crcHigh (c : BitVec 16) : Byte := c.extractLsb' 8 8

/-- `c[7:0]`. -/
def crcLow (c : BitVec 16) : Byte := c.extractLsb' 0 8

/-! ### Framing (R154) -/

/-- `frame_bytes(P, c)` of profile `MANCH_FRAMED`. -/
def frameBytes (c : Cfg) (p : List Byte) (crc : BitVec 16) : List Byte :=
  List.replicate c.k c.preambleByte ++ [c.sof0, c.sof1] ++ [BitVec.ofNat 8 p.length] ++ p
    ++ [crcHigh crc, crcLow crc] ++ [c.stopByte]

/-- The byte stream of profile `BIT_SERIAL` (R97). -/
def streamBytes (p : List Byte) (crc : BitVec 16) : List Byte := p ++ [crcHigh crc, crcLow crc]

/-! ### Line code (R158, R159, R163, R164) -/

/-- `manch_bit(b)`. -/
def manchBit (b : Bool) : List Bool := if b then [true, false] else [false, true]

/-- `manch_byte(v)` with the bit order given: cell k carries bit 7 - k, or bit k. -/
def manchByte (msbFirst : Bool) (v : Byte) : List Bool :=
  (List.range 8).flatMap fun k => manchBit (v.getLsbD (if msbFirst then 7 - k else k))

/-- The ten bit cells of `serial_byte(v)`: start, data bit 0 first, stop. -/
def serialCells (start : Bool) (v : Byte) : List Bool :=
  start :: (List.range 8).map (fun k => v.getLsbD k) ++ [!start]

/-- `serial_byte(v)`: each cell as two equal half-cells. -/
def serialByte (start : Bool) (v : Byte) : List Bool :=
  (serialCells start v).flatMap fun l => [l, l]

/-- `byte_halfcells(v)`. -/
def byteHalfcells (c : Cfg) (v : Byte) : List Bool :=
  match c.profile with
  | .manchFramed => manchByte c.manchMsbFirst v
  | .bitSerial => serialByte c.serStartLevel v

/-- `CELLS`, the bit cells of a byte (R164). -/
def cells (c : Cfg) : Nat :=
  match c.profile with
  | .manchFramed => 8
  | .bitSerial => 10

/-! ### The wire payload (R260, R262) -/

/-- `fix32(x, S)`: scale, saturate, truncate toward zero; a NaN gives 0. -/
def fix32 (x scale : F32) : BitVec 32 :=
  if isnan x then 0x00000000#32
  else
    let p := fmul x scale
    if fge p 0x4F000000#32 then 0x7FFFFFFF#32
    else if fle p 0xCF000000#32 then 0x80000000#32
    else truncI32 p

/-- The 21 payload bytes of a device identifier and five fields (R93, R94). -/
def payloadBytes (d : Byte) (v i p e b : BitVec 32) : List Byte :=
  d :: (leBytes v ++ leBytes i ++ leBytes p ++ leBytes e ++ leBytes b)

end Sys2Proof.Machine
end

