-- ==== Sys2Proof/Machine/Operands.lean ====
section
/-! DEFINITION. The operand forms: what the steps read through the serializer position and the
payload registers, the ranges of the counters, and the guard common to the steps of `MAIN`. -/

namespace Sys2Proof.Machine

/-- `FLEN`, the bytes of one copy (R90, R97). -/
def flen (s : State) : Nat :=
  match s.cfg.profile with
  | .manchFramed => s.cfg.k + 6 + s.plen.toNat
  | .bitSerial => s.plen.toNat + 2

/-- `frame_byte(i)` (R155). It is `none` for `i >= FLEN`, where it is not defined, and at a payload
index that `pbuf` does not have (R33). -/
def frameByte (s : State) (i : Nat) : Option Byte :=
  let n := s.plen.toNat
  match s.cfg.profile with
  | .manchFramed =>
    let k := s.cfg.k
    if i < k then some s.cfg.preambleByte
    else if i = k then some s.cfg.sof0
    else if i = k + 1 then some s.cfg.sof1
    else if i = k + 2 then some s.plen
    else if i < k + 3 + n then payloadByte s (i - k - 3)
    else if i = k + 3 + n then some (crcHigh s.crcReg)
    else if i = k + 4 + n then some (crcLow s.crcReg)
    else if i = k + 5 + n then some s.cfg.stopByte
    else none
  | .bitSerial =>
    if i < n then payloadByte s i
    else if i = n then some (crcHigh s.crcReg)
    else if i = n + 1 then some (crcLow s.crcReg)
    else none

/-- `cell_level(v, k, h)` (R183), for `k < CELLS`. -/
def cellLevel (c : Cfg) (v : Byte) (k : Nat) (h : Bool) : Bool :=
  match c.profile with
  | .manchFramed =>
    let b := v.getLsbD (if c.manchMsbFirst then 7 - k else k)
    if h then !b else b
  | .bitSerial =>
    if k = 0 then c.serStartLevel
    else if k ≤ 8 then v.getLsbD (k - 1)
    else !c.serStartLevel

/-- The payload that the registers of the cycle give (R262). -/
def builtPayload (s : State) : List Byte :=
  payloadBytes s.cfg.deviceId
    (fix32 s.vrms Config.scale100) (fix32 s.irms Config.scale1000) (fix32 s.power Config.scale100)
    (fix32 s.acc Config.scale100) (fix32 s.vbat Config.scale100)

/-- The payload bytes are laid down from index 0, the bytes past them stay, and `plen` is 21
(R262). -/
def layPayload (s : State) (bs : List Byte) : State :=
  { s with pbuf := bs ++ s.pbuf.drop bs.length, plen := 21#8 }

/-- The serializer position moves on by one half-cell (R182). -/
def advance (s : State) : State :=
  if s.txHalf = false then { s with txHalf := true }
  else if s.txBit.toNat < cells s.cfg - 1 then { s with txHalf := false, txBit := s.txBit + 1#4 }
  else if s.txIdx.toNat < flen s - 1 then
    { s with txHalf := false, txBit := 0#4, txIdx := s.txIdx + 1#10 }
  else { s with txHalf := false, txBit := 0#4, seq := Seq.tEnd }

/-- Every counter is in its range (R21, R22, R33, R123). -/
def countersInRange (s : State) : Bool :=
  decide (s.txBit.toNat < cells s.cfg) && decide (s.txIdx.toNat < flen s)
    && decide (s.txRep.toNat < s.cfg.copies) && decide (s.sleepCnt.toNat ≤ s.cfg.sleepIntervals)
    && decide (s.plen.toNat ≤ s.cfg.payloadMax)

/-- A step of `MAIN` has a meaning under a well-formed configuration (R9) in a state whose counters
are in range (R123). -/
def onMain (s : State) (k : State → Host.Outcome State Fault Refusal) :
    Host.Outcome State Fault Refusal :=
  configured s fun s => if countersInRange s then k s else .fault .counterRange

end Sys2Proof.Machine
end

