-- ==== Sys2Proof/Machine/Flags.lean ====
section
/-! DEFINITION. The tests that decide a flag or a branch, the energy arithmetic behind them, and the
durations attached to events. -/

namespace Sys2Proof.Machine

/-- The pattern an answer of the store spells (R200). -/
def respPattern (r : NvResp) : F32 := leWord r.b0 r.b1 r.b2 r.b3

/-- The validity test of `load` (R200, R202): present, and in [0, `ACC_MAX`]. -/
def loadValid (r : NvResp) : Bool :=
  r.present && fge (respPattern r) 0x00000000#32 && fle (respPattern r) Config.accMax

/-- The accumulator `load` returns (R200). -/
def loadValue (r : NvResp) : F32 := if loadValid r then respPattern r else 0x00000000#32

/-- Class 4 is not raised: the clock advanced, as unsigned numbers (R134, R135). -/
def clockAdvanced (s : State) (t : Stamp) : Bool := decide (s.lastTs.toNat < t.toNat)

/-- The increment of `integrate` (R134): power `p` over the elapsed hours, or the fallback. -/
def increment (s : State) (p : F32) (t : Stamp) : F32 :=
  if clockAdvanced s t then fmul p (fdiv (u32ToF32 (t - s.lastTs)) Config.msPerHour)
  else s.cfg.elapsedFallback

/-- The accumulator after `integrate` (R134, R136): a sum that is not finite is dropped. -/
def integrated (s : State) (p : F32) (t : Stamp) : F32 :=
  if isfinite (fadd s.acc (increment s p t)) then fadd s.acc (increment s p t) else s.acc

/-- The undervoltage test of `M_GATE` (R224). -/
def undervolted (s : State) : Bool := flt s.vbat s.cfg.vbatFloor

/-- The threshold test of `maybe_persist` (R203). -/
def drifted (s : State) : Bool := fge (fabs (fsub s.acc s.wm)) s.cfg.persistThreshold

/-- Twice the duration attached to an event, in the configuration's unit of time (R13, R188): a
half-cell lasts `BIT_PERIOD / 2`, `Guard` `GUARD_TIME`, `Idle` nothing; after `ArmTimer` the timer
expires `TIMER_INTERVAL` later. No other event has a duration. -/
def Event.twiceDuration (c : Cfg) : Event → Nat
  | .half _ => c.bitPeriod
  | .guard => 2 * c.guardTime
  | .armTimer => 2 * c.timerInterval
  | .idle => 0
  | .measReq => 0
  | .nvRd _ _ => 0
  | .nvWr _ _ _ _ _ => 0
  | .diag _ => 0
  | .halt => 0
  | .wake => 0

end Sys2Proof.Machine
end

