-- ==== Sys2Proof/Machine/Boot.lean ====
section
/-! DEFINITION. Boot: the sequencer state `B_LOAD` (44_scheduler.md R221). -/

namespace Sys2Proof.Machine

/-- `load` (R200, R201): the accumulator and the watermark from the store's answer; class 1 when the
answer is not valid. -/
def loadStore (s : State) (r : NvResp) : State :=
  let s1 := emit s (.nvRd s.cfg.nvOffset 4)
  let s2 := if loadValid r then s1 else raise s1 .corruptPersisted
  { s2 with acc := loadValue r, wm := loadValue r }

/-- `B_LOAD` (R221). The step completes when both draws are answered; until then it has not happened. -/
def execBLoad (s : State) : Host.Outcome State Fault Refusal :=
  onMain s fun s =>
    if answered s.nvIn && answered s.nowIn then
      .next { loadStore s (answerOr (storeAnswer s) s.nvIn) with
        lastTs := answerOr (Config.freeNow s.draws) s.nowIn
        seq := Seq.mMeas
        nvIn := s.nvIn.tail
        nowIn := s.nowIn.tail
        draws := s.draws + 1 }
    else .next { s with nvIn := skipUnanswered s.nvIn, nowIn := skipUnanswered s.nowIn }

end Sys2Proof.Machine
end

