-- ==== Sys2Proof/Machine/Interrupt.lean ====
section
/-! DEFINITION. The step of agent `ISR` (60_exceptions.md R291) and the reserved codes of `seq`
(30_encoding.md R122). -/

namespace Sys2Proof.Machine

/-- `ISR` (R291): reads no register of the block, writes the wake flag alone. -/
def execIsr (s : State) : Host.Outcome State Fault Refusal :=
  configured s fun s => .next (takeExpiry s)

/-- Codes 0xA and 0xB (R122): `fault SeqReserved`, whatever the code's low bit. -/
def execSeqReservedAB (_x : BitVec 1) (_s : State) : Host.Outcome State Fault Refusal :=
  .fault .seqReserved

/-- Codes 0xC to 0xF (R122): `fault SeqReserved`, whatever the code's low bits. -/
def execSeqReservedCF (_x : BitVec 2) (_s : State) : Host.Outcome State Fault Refusal :=
  .fault .seqReserved

end Sys2Proof.Machine
end

