-- ==== Sys2Proof/Machine/LineCode.lean ====
section
/-! DEFINITION. The words of the line code (30_encoding.md R95, R96; 41_frame_codec.md R158, R159, R163): the
line is driven through the word's half-cells. `T_CELL` sends the same half-cells one a step; no step
of the machine selects these words by themselves (notes/assumptions/9.md). -/

namespace Sys2Proof.Machine

/-- `MANCH1` (R158): assert the line, hold, de-assert it, hold. -/
def execManch1 (s : State) : Host.Outcome State Fault Refusal :=
  configured s fun s => .next (driveAll s (manchBit true))

/-- `MANCH0` (R158): the inverse. -/
def execManch0 (s : State) : Host.Outcome State Fault Refusal :=
  configured s fun s => .next (driveAll s (manchBit false))

/-- `MANCH_BYTE_MSB` (R159). -/
def execManchByteMsb (v : Byte) (s : State) : Host.Outcome State Fault Refusal :=
  configured s fun s => .next (driveAll s (manchByte true v))

/-- `MANCH_BYTE_LSB` (R159). -/
def execManchByteLsb (v : Byte) (s : State) : Host.Outcome State Fault Refusal :=
  configured s fun s => .next (driveAll s (manchByte false v))

/-- `SER_BYTE` (R163). -/
def execSerByte (v : Byte) (s : State) : Host.Outcome State Fault Refusal :=
  configured s fun s => .next (driveAll s (serialByte s.cfg.serStartLevel v))

end Sys2Proof.Machine
end

