-- ==== Sys2Proof/Machine/Measure.lean ====
section
/-! DEFINITION. Measuring: `M_MEAS`, `M_INTEG`, `M_GATE` (44_scheduler.md R222 to R224). -/

namespace Sys2Proof.Machine

/-- `M_MEAS` (R222): the answer is latched as given. The step completes when `MEAS` answers. -/
def execMMeas (s : State) : Host.Outcome State Fault Refusal :=
  onMain s fun s =>
    if answered s.measIn then
      let r := answerOr (Config.freeMeas s.draws) s.measIn
      .next { emit s .measReq with
        vrms := r.vrms
        irms := r.irms
        vbat := r.vbat
        seq := Seq.mInteg
        measIn := s.measIn.tail
        draws := s.draws + 1 }
    else .next { s with measIn := skipUnanswered s.measIn }

/-- `M_INTEG` (R223): power, then `integrate` (R133, R134). -/
def execMInteg (s : State) : Host.Outcome State Fault Refusal :=
  onMain s fun s =>
    if answered s.nowIn then
      let t := answerOr (Config.freeNow s.draws) s.nowIn
      let p := fmul s.vrms s.irms
      let s1 := if clockAdvanced s t then s else raise s .nonPositiveElapsed
      .next { s1 with
        power := p
        acc := integrated s p t
        lastTs := t
        seq := Seq.mGate
        nowIn := s.nowIn.tail
        draws := s.draws + 1 }
    else .next { s with nowIn := skipUnanswered s.nowIn }

/-- `M_GATE` (R224): the undervoltage gate. -/
def execMGate (s : State) : Host.Outcome State Fault Refusal :=
  onMain s fun s =>
    if undervolted s then
      .next { raise s .undervoltage with uv := true, sleepCnt := 0#8, seq := Seq.sArm }
    else .next { s with uv := false, seq := Seq.tBuild }

end Sys2Proof.Machine
end

