-- ==== Sys2Proof/Machine/Persist.lean ====
section
/-! DEFINITION. Persisting: `P_CHECK` (44_scheduler.md R228). -/

namespace Sys2Proof.Machine

/-- `maybe_persist` (R203). -/
def maybePersist (s : State) : State :=
  if drifted s then { nvWrite s s.acc with wm := s.acc, didWrite := true }
  else { s with didWrite := false }

/-- `P_CHECK` (R228). -/
def execPCheck (s : State) : Host.Outcome State Fault Refusal :=
  onMain s fun s => .next { maybePersist s with sleepCnt := 0#8, seq := Seq.sArm }

end Sys2Proof.Machine
end

