-- ==== Sys2Proof/Machine/Records.lean ====
section
/-! DEFINITION. The words of the payload, the store and the frame (30_encoding.md R90, R93, R99): each is
laid down, stored or sent as the step that uses it does (notes/assumptions/9.md). -/

namespace Sys2Proof.Machine

/-- `PAYLOAD_BIN` (R93, R262): the fields are laid down in `pbuf` and `plen` is 21. -/
def execPayloadBin (d : Byte) (v i p e b : BitVec 32) (s : State) :
    Host.Outcome State Fault Refusal :=
  configured s fun s => .next (layPayload s (payloadBytes d v i p e b))

/-- `NV_F32` (R99, R63): the pattern is written to the store. -/
def execNvF32 (u : BitVec 32) (s : State) : Host.Outcome State Fault Refusal :=
  configured s fun s => .next (nvWrite s u)

/-- The Manchester half-cells of frame bytes (R154, R159). -/
def frameHalfcells (c : Cfg) (bs : List Byte) : List Bool :=
  bs.flatMap (manchByte c.manchMsbFirst)

/-- `FRAME_HEAD` (R90): the two start-of-frame bytes and the length byte are sent. -/
def execFrameHead (a t l : Byte) (s : State) : Host.Outcome State Fault Refusal :=
  configured s fun s => .next (driveAll s (frameHalfcells s.cfg [a, t, l]))

/-- `FRAME_TAIL` (R90): the CRC, high byte first, and the stop byte are sent. -/
def execFrameTail (crc : BitVec 16) (p : Byte) (s : State) : Host.Outcome State Fault Refusal :=
  configured s fun s => .next (driveAll s (frameHalfcells s.cfg [crcHigh crc, crcLow crc, p]))

end Sys2Proof.Machine
end

