-- ==== Sys2Proof/Machine/Sleep.lean ====
section
/-! DEFINITION. Sleeping: `S_ARM` and `S_HALT` (44_scheduler.md R229, R230). -/

namespace Sys2Proof.Machine

/-- `S_ARM` (R229): clear, arm, halt, as one step. -/
def execSArm (s : State) : Host.Outcome State Fault Refusal :=
  onMain s fun s =>
    .next { emit (emit { s with wakeFlag := false } .armTimer) .halt with
      halted := true
      seq := Seq.sHalt }

/-- `S_HALT` (R230): enabled by the wake flag, which it does not clear. While the flag is 0 the main
flow is halted and nothing changes (R231). -/
def execSHalt (s : State) : Host.Outcome State Fault Refusal :=
  onMain s fun s =>
    if s.wakeFlag then
      .next { emit s .wake with
        halted := false
        sleepCnt := s.sleepCnt + 1#8
        seq := if s.sleepCnt.toNat + 1 < s.cfg.sleepIntervals then Seq.sArm else Seq.mMeas }
    else .next s

end Sys2Proof.Machine
end

