-- ==== Sys2Proof/Machine/Transmit.lean ====
section
/-! DEFINITION. Transmitting: `T_BUILD` (44_scheduler.md R225), `T_CELL` and `T_END`
(42_transmitter.md R182, R184). -/

namespace Sys2Proof.Machine

/-- `T_BUILD` (R225): the payload, the CRC over the bytes just built, the serializer position. -/
def execTBuild (s : State) : Host.Outcome State Fault Refusal :=
  onMain s fun s =>
    .next { layPayload s (builtPayload s) with
      crcReg := crc16 (builtPayload s)
      txRep := 0#8
      txIdx := 0#10
      txBit := 0#4
      txHalf := false
      seq := Seq.tCell }

/-- `T_CELL` (R182): one half-cell. -/
def execTCell (s : State) : Host.Outcome State Fault Refusal :=
  onMain s fun s =>
    match frameByte s s.txIdx.toNat with
    | some v => .next (advance (drive s (cellLevel s.cfg v s.txBit.toNat s.txHalf)))
    | none => .fault .noSuchPayloadByte

/-- `T_END` (R184): the line is idled; guard and next copy, or the transmission is done. -/
def execTEnd (s : State) : Host.Outcome State Fault Refusal :=
  onMain s fun s =>
    let s1 := { emit s .idle with line := false, txIdx := 0#10, txBit := 0#4, txHalf := false }
    if s.txRep.toNat + 1 < s.cfg.copies then
      .next { emit s1 .guard with txRep := s.txRep + 1#8, seq := Seq.tCell }
    else .next { s1 with txRep := 0#8, seq := Seq.pCheck }

/-! ### The transmission as one trace (R180) -/

/-- The half-cells of one frame copy, as events. -/
def copyTrace (s : State) : List Event :=
  (List.range (flen s)).flatMap fun i =>
    ((frameByte s i).elim [] (byteHalfcells s.cfg)).map Event.half

/-- `tx_trace`. -/
def txTrace (s : State) : List Event :=
  copyTrace s ++ [.idle]
    ++ (List.replicate (s.cfg.copies - 1) ([Event.guard] ++ copyTrace s ++ [Event.idle])).flatten

end Sys2Proof.Machine
end

