-- ==== Sys2Proof/Machine/Dispatch.lean ====
section
/-! DEFINITION. The meaning of every instruction: one arm per constructor. -/

namespace Sys2Proof.Machine

def exec (i : Instr) (s : State) : Host.Outcome State Fault Refusal :=
  match i with
  | .bLoad => Sys2Proof.Machine.execBLoad s
  | .mMeas => Sys2Proof.Machine.execMMeas s
  | .mInteg => Sys2Proof.Machine.execMInteg s
  | .mGate => Sys2Proof.Machine.execMGate s
  | .tBuild => Sys2Proof.Machine.execTBuild s
  | .tCell => Sys2Proof.Machine.execTCell s
  | .tEnd => Sys2Proof.Machine.execTEnd s
  | .pCheck => Sys2Proof.Machine.execPCheck s
  | .sArm => Sys2Proof.Machine.execSArm s
  | .sHalt => Sys2Proof.Machine.execSHalt s
  | .seqReservedAB x => Sys2Proof.Machine.execSeqReservedAB x s
  | .seqReservedCF x => Sys2Proof.Machine.execSeqReservedCF x s
  | .isr => Sys2Proof.Machine.execIsr s
  | .manch1 => Sys2Proof.Machine.execManch1 s
  | .manch0 => Sys2Proof.Machine.execManch0 s
  | .manchByteMsb v => Sys2Proof.Machine.execManchByteMsb v s
  | .manchByteLsb v => Sys2Proof.Machine.execManchByteLsb v s
  | .serByte v => Sys2Proof.Machine.execSerByte v s
  | .payloadBin d v p q e b => Sys2Proof.Machine.execPayloadBin d v p q e b s
  | .nvF32 u => Sys2Proof.Machine.execNvF32 u s
  | .frameHead a t l => Sys2Proof.Machine.execFrameHead a t l s
  | .frameTail c p => Sys2Proof.Machine.execFrameTail c p s

end Sys2Proof.Machine
end

