-- ==== Sys2Proof/Machine/Step.lean ====
section
/-! DEFINITION. One step of the machine: the next move of `MAIN`, `ISR`, the reset or the store. -/

namespace Sys2Proof.Machine

/-- A fetched word is decoded and its instruction executed. -/
def runWord (f : Format) (bs : List Bool) (s : State) : Host.Outcome State Fault Refusal :=
  match decode s.cfg f bs with
  | .ok i => exec i s
  | .error e => .refused (.undecodable e)

/-- One step (R7, R231, R291, R330): the next move is taken off the agenda; `MAIN` runs the code in
`seq`, `ISR` serves an expiry. -/
def step (s : State) : Host.Outcome State Fault Refusal :=
  match nextMove s with
  | .main => runWord .seq (seqWord s) (popAgenda s)
  | .expiry => runWord .irq [true] (popAgenda s)
  | .powerOn => .next (powerOnReset (popAgenda s))
  | .nvDone => .next (nvComplete (popAgenda s))

/-- The word's code in `seq`, with `MAIN` the next to move: the next step fetches and runs it. Words
of the formats that are not fetched are never given here (`decodeTableWord`). -/
def State.withFetchWord (s : State) (_nbits w : Nat) : State :=
  { s with seq := BitVec.ofNat 4 w, agenda := .main :: s.agenda }

end Sys2Proof.Machine
end

