-- ==== Sys2Proof/Safety.lean ====
section
/-! DEFINITION. What counts as a safe state and a safe run, in the terms the statements use. -/

namespace Sys2Proof.Machine

/-- A state in which a step of `MAIN` has a meaning: a well-formed configuration (R9) and counters in
range (R123). -/
abbrev Ready (s : State) : Prop := s.cfg.wf = true ∧ countersInRange s = true

/-- `pbuf[0..plen-1]` holds exactly the bytes `p` (R33). -/
abbrev HoldsPayload (s : State) (p : List Byte) : Prop :=
  s.plen.toNat = p.length ∧ ∀ i, i < p.length → payloadByte s i = p[i]?

/-- `seq` is inside the transmission of a frame: the serializer position is meaningful (R21). -/
abbrev sending (s : State) : Prop := s.seq = Seq.tCell ∨ s.seq = Seq.tEnd

/-- The invariant of the block. Each field is a claim the spec derives for the states its rules
produce. -/
structure Inv (s : State) : Prop where
  /-- the configuration is well-formed (R9, R334 (a)) -/
  cfgWf : s.cfg.wf = true
  /-- no reserved code (R122) -/
  seqLegal : s.seq.toNat ≤ 9
  /-- counters in range (R123) -/
  inRange : countersInRange s = true
  /-- halted exactly in `S_HALT` (R29) -/
  haltedIff : s.halted = true ↔ s.seq = Seq.sHalt
  /-- the line is idle outside a frame copy (R32, R187) -/
  lineIdle : s.line = true → sending s
  /-- the serializer position is zero outside a transmission (R184, R185) -/
  positionIdle : ¬ sending s →
    s.txRep = 0#8 ∧ s.txIdx = 0#10 ∧ s.txBit = 0#4 ∧ s.txHalf = false
  /-- in `T_END` the last byte of the copy has been sent (R182) -/
  copyEnded : s.seq = Seq.tEnd →
    s.txIdx.toNat + 1 = flen s ∧ s.txBit = 0#4 ∧ s.txHalf = false
  /-- in Sleeping an interval is still to come (R230) -/
  intervalOpen : s.seq = Seq.sArm ∨ s.seq = Seq.sHalt → s.sleepCnt.toNat < s.cfg.sleepIntervals
  /-- the accumulator is finite (R25, R136) -/
  accFinite : isfinite s.acc = true
  /-- the watermark is finite (R204) -/
  wmFinite : isfinite s.wm = true
  /-- the payload is absent or the 21 bytes of the binary profile (R92, R262) -/
  plenLegal : s.plen = 0#8 ∨ s.plen = 21#8
  /-- `pbuf` has `PAYLOAD_MAX` bytes (R33, R60) -/
  bufferWhole : s.pbuf.length = s.cfg.payloadMax
  /-- the frame source is the payload and its CRC while it is sent (R74, R152, R342) -/
  frameBuilt : sending s → ∃ p, p.length = 21 ∧ HoldsPayload s p ∧ s.crcReg = crc16 p
  /-- the store is in its canonical form -/
  nvCanonical : memWf s.nv = true

/-- What `T_CELL` needs beyond a ready state: the payload lies inside `pbuf` (R33). -/
abbrev PayloadInBuffer (s : State) : Prop := s.plen.toNat ≤ s.pbuf.length

/-- The serializer position is at payload byte `j` (R155). -/
abbrev selectsPayload (s : State) (j : Nat) : Prop :=
  j < s.plen.toNat
    ∧ s.txIdx.toNat = match s.cfg.profile with
      | .manchFramed => s.cfg.k + 3 + j
      | .bitSerial => j

/-- `FLEN` of the 21-byte payload that the scheduler sends (R90, R92, R97). -/
def flen21 (c : Cfg) : Nat :=
  match c.profile with
  | .manchFramed => c.k + 27
  | .bitSerial => 23

/-- The steps of `MAIN` in one transmission of frames of `n` bytes (R185). -/
def txSteps (c : Cfg) (n : Nat) : Nat := c.copies * (2 * cells c * n + 1)

/-- The moves of one sub-sleep interval: `a` expiries before `S_ARM`, `b + 1` between it and `S_HALT`
(R295, R296). -/
def intervalMoves (ab : Nat × Nat) : List Move :=
  List.replicate ab.1 .expiry ++ [.main] ++ List.replicate (ab.2 + 1) .expiry ++ [.main]

/-- The events of the Sleeping state (R232, R233). -/
def sleepEvents (c : Cfg) : List Event :=
  (List.replicate c.sleepIntervals [Event.armTimer, Event.halt, Event.wake]).flatten

/-- `k` steps of the machine. -/
def runSteps (k : Nat) (s : State) : Host.Outcome State Fault Refusal := Sys2Proof.core.run k s

/-! ### The reference decoder (95_test_vectors.md §2.6)

A test aid, not part of the block: the plain inverse of `frame_bytes` and `manch_byte` on the
half-cells of exactly one frame copy. -/

/-- The byte whose eight bits were sent in the given order (R159). -/
def byteSent (msbFirst : Bool) (bits : List Bool) : Byte :=
  ofBits 8 (if msbFirst then bits else bits.reverse)

/-- The bytes of a list of bits, eight at a time; bits past the last whole byte are dropped. -/
def bytesSent (msbFirst : Bool) : Nat → List Bool → List Byte
  | 0, _ => []
  | n + 1, bits => byteSent msbFirst (bits.take 8) :: bytesSent msbFirst n (bits.drop 8)

/-- `decode(h)`: the payload, or `none` where the reference decoder reports an error. -/
def referenceDecode (c : Cfg) (h : List Bool) : Option (List Byte) :=
  if h.length % 16 ≠ 0 ∨ h.length / 16 < c.k + 6 then none
  else match cellBits h with
    | none => none
    | some bits =>
      let n := h.length / 16
      let bytes := bytesSent c.manchMsbFirst n bits
      let head := List.replicate c.k c.preambleByte ++ [c.sof0, c.sof1]
      let l := (bytes.getD (c.k + 2) 0#8).toNat
      let p := (bytes.drop (c.k + 3)).take l
      let crc := crc16 p
      if bytes.take (c.k + 2) ≠ head then none
      else if n ≠ c.k + 6 + l then none
      else if bytes.drop (c.k + 3 + l) ≠ [crcHigh crc, crcLow crc, c.stopByte] then none
      else some p

end Sys2Proof.Machine
end

