-- ==== Sys2Proof/Certificates/Slice0/Obligations.lean ====
section
/-! DEFINITION. The statements for the provers. Each docstring names the rules of spec/ it formalises, or
says that it is derived. Wherever a statement speaks of `agenda`, `nvIn`, `nowIn`, `measIn` or `draws`, that is the
model's own rendering of the free order of the agents (R7) and of the draws (R12, R337):
notes/assumptions/4.md and 5.md. -/

open Sys2Proof Sys2Proof.Machine

/-! ## Boot -/

/-- R200, R201, R221: `B_LOAD` on whatever answers `r` of `NV` and `now` of `CLOCK` are drawn: everything the
step does to the block's own state. That a draw takes the next scripted answer, and with none scripted the
store's own bytes, absent where never written, or a free value of the clock, is the model's choice
(notes/assumptions/3.md, 4.md, 15.md). -/
def Obligations.BootLoadsValidatedAccumulator : Prop :=
  ∀ s : State, Ready s → answered s.nvIn = true → answered s.nowIn = true →
    let r := answerOr (storeAnswer s) s.nvIn
    let u : F32 := r.b3 ++ r.b2 ++ r.b1 ++ r.b0
    let v : F32 :=
      if r.present = true ∧ fge u 0x00000000#32 = true ∧ fle u 0x49742400#32 = true then u
      else 0x00000000#32
    let now := answerOr (Config.freeNow s.draws) s.nowIn
    ∃ t, exec .bLoad s = .next t
      ∧ { t with nvIn := s.nvIn, nowIn := s.nowIn, draws := s.draws } = { s with
        acc := v
        wm := v
        lastTs := now
        seq := 0x1#4
        trace := s.trace ++ [.nvRd s.cfg.nvOffset 4] }

/-- R62, R64: with no scripted answer the store answers by its duty: its four bytes, least significant
first, or `present = 0` when one of them was never written. -/
def Obligations.BootReadsTheStoredBytes : Prop :=
  ∀ s : State, Ready s → s.nvIn = [] → answered s.nowIn = true →
    (∀ b0 b1 b2 b3 : Byte,
      readByte s.nv s.cfg.nvOffset = some b0 → readByte s.nv (s.cfg.nvOffset + 1) = some b1 →
      readByte s.nv (s.cfg.nvOffset + 2) = some b2 → readByte s.nv (s.cfg.nvOffset + 3) = some b3 →
      ∃ t, exec .bLoad s = .next t ∧ t.acc = loadValue ⟨true, b0, b1, b2, b3⟩ ∧ t.wm = t.acc
        ∧ t.seq = 0x1#4)
    ∧ ((∃ i, i < 4 ∧ readByte s.nv (s.cfg.nvOffset + i) = none) →
      ∃ t, exec .bLoad s = .next t ∧ t.acc = 0x00000000#32 ∧ t.wm = 0x00000000#32
        ∧ t.seq = 0x1#4)

/-- R25: whatever is answered, the accumulator after `B_LOAD` is finite and within [0, 1e6], and the
watermark equals it. -/
def Obligations.LoadedAccumulatorIsInRange : Prop :=
  ∀ s t : State, answered s.nvIn = true → answered s.nowIn = true → exec .bLoad s = .next t →
    isfinite t.acc = true ∧ fle 0x00000000#32 t.acc = true ∧ fle t.acc 0x49742400#32 = true
      ∧ t.wm = t.acc

/-- R202: what `load` accepts, as a set of patterns: exactly the patterns from +0.0 to `ACC_MAX` and
-0.0. -/
def Obligations.LoadAcceptsExactlyTheRange : Prop :=
  ∀ b0 b1 b2 b3 : Byte,
    loadValid ⟨true, b0, b1, b2, b3⟩ = true ↔
      (b3 ++ b2 ++ b1 ++ b0 : BitVec 32).toNat ≤ 0x49742400
        ∨ (b3 ++ b2 ++ b1 ++ b0 : BitVec 32) = 0x80000000#32

/-! ## Measuring -/

/-- R222: the three values are latched as given. Without a scripted answer they are the free value of
this draw, the model's choice (notes/assumptions/4.md). -/
def Obligations.MeasurementIsLatched : Prop :=
  ∀ s : State, Ready s → answered s.measIn = true →
    exec .mMeas s = .next { s with
      vrms := (answerOr (Config.freeMeas s.draws) s.measIn).vrms
      irms := (answerOr (Config.freeMeas s.draws) s.measIn).irms
      vbat := (answerOr (Config.freeMeas s.draws) s.measIn).vbat
      seq := 0x2#4
      trace := s.trace ++ [.measReq]
      measIn := s.measIn.tail
      draws := s.draws + 1 }

/-- R133, R134, R136, R223: power, the elapsed hours, the fallback, the non-finite guard and the
timestamp, for whatever time `t` is drawn: everything the step does to the block's own state. That
the time is the next scripted answer, or a free value, is the model's choice (notes/assumptions/4.md). -/
def Obligations.IntegrationStep : Prop :=
  ∀ s : State, Ready s → answered s.nowIn = true →
    let t := answerOr (Config.freeNow s.draws) s.nowIn
    let p := fmul s.vrms s.irms
    let inc :=
      if s.lastTs.toNat < t.toNat then fmul p (fdiv (u32ToF32 (t - s.lastTs)) 0x4A5BBA00#32)
      else s.cfg.elapsedFallback
    ∃ u, exec .mInteg s = .next u
      ∧ { u with nowIn := s.nowIn, draws := s.draws } = { s with
        power := p
        acc := if isfinite (fadd s.acc inc) = true then fadd s.acc inc else s.acc
        lastTs := t
        seq := 0x3#4 }

/-- R25, R136: a finite accumulator stays finite through `M_INTEG`, whatever was measured and whatever
the clock answers. -/
def Obligations.IntegrationKeepsAccumulatorFinite : Prop :=
  ∀ s t : State, isfinite s.acc = true → exec .mInteg s = .next t → isfinite t.acc = true

/-- R135: when the clock did not advance, or wrapped, and the fallback is +0.0, nothing is added: the
accumulator compares equal to what it was, and `last_ts` is updated all the same. -/
def Obligations.WrappedClockAddsNothing : Prop :=
  ∀ (s : State) (now : Stamp) (q : List (Option Stamp)),
    Ready s → s.nowIn = some now :: q → now.toNat ≤ s.lastTs.toNat →
    s.cfg.elapsedFallback = 0x00000000#32 → isfinite s.acc = true →
    ∃ t, exec .mInteg s = .next t ∧ t.lastTs = now
      ∧ (t.acc = s.acc ∨ (s.acc = 0x80000000#32 ∧ t.acc = 0x00000000#32))

/-- R137: a non-negative increment never decreases the accumulator. -/
def Obligations.NonNegativeIncrementNeverDecreases : Prop :=
  ∀ s t : State, answered s.nowIn = true → exec .mInteg s = .next t → isfinite s.acc = true →
    fge (increment s (fmul s.vrms s.irms) (answerOr (Config.freeNow s.draws) s.nowIn)) 0x00000000#32
      = true →
    fge t.acc s.acc = true

/-- R224: the undervoltage gate, both ways. -/
def Obligations.UndervoltageGate : Prop :=
  ∀ s : State, Ready s →
    (flt s.vbat s.cfg.vbatFloor = true →
      exec .mGate s = .next { s with
        uv := true
        trace := s.trace ++ [.diag 2]
        sleepCnt := 0#8
        seq := 0x8#4 })
    ∧ (flt s.vbat s.cfg.vbatFloor = false →
      exec .mGate s = .next { s with uv := false, seq := 0x4#4 })

/-- R224, corner cases: a battery voltage equal to the floor transmits, and so does a NaN. -/
def Obligations.FloorAndNaNTransmit : Prop :=
  ∀ s : State, Ready s → s.vbat = s.cfg.vbatFloor ∨ isnan s.vbat = true →
    ∃ t, exec .mGate s = .next t ∧ t.seq = 0x4#4 ∧ t.uv = false ∧ t.trace = s.trace

/-- R222, R231: a step whose draw is not answered has not happened: nothing but the script changes. That the
model shows this as a step that changes nothing is its choice (notes/assumptions/11.md). -/
def Obligations.UnansweredDrawsChangeNothing : Prop :=
  ∀ s : State, Ready s →
    (answered s.nvIn = false ∨ answered s.nowIn = false →
      ∃ t, exec .bLoad s = .next t ∧ { t with nvIn := s.nvIn, nowIn := s.nowIn } = s)
    ∧ (answered s.measIn = false →
      ∃ t, exec .mMeas s = .next t ∧ { t with measIn := s.measIn } = s)
    ∧ (answered s.nowIn = false →
      ∃ t, exec .mInteg s = .next t ∧ { t with nowIn := s.nowIn } = s)

/-! ## Transmitting -/

/-- R225, R262, R94: the payload bytes, the CRC over them, the serializer position, and everything else
as it was. -/
def Obligations.PayloadIsBuilt : Prop :=
  ∀ s : State, Ready s →
    let w : List (BitVec 32) :=
      [fix32 s.vrms 0x42C80000#32, fix32 s.irms 0x447A0000#32, fix32 s.power 0x42C80000#32,
        fix32 s.acc 0x42C80000#32, fix32 s.vbat 0x42C80000#32]
    ∃ t, exec .tBuild s = .next t
      ∧ payloadByte t 0 = some s.cfg.deviceId
      ∧ (∀ f i, f < 5 → i < 4 →
        payloadByte t (1 + 4 * f + i) = some ((w.getD f 0#32 >>> (8 * i)).setWidth 8))
      ∧ (∀ a, 21 ≤ a → payloadByte t a = payloadByte s a)
      ∧ t.crcReg = crc16 (t.pbuf.take 21)
      ∧ { t with pbuf := s.pbuf, crcReg := s.crcReg } = { s with
          plen := 21#8
          txRep := 0#8
          txIdx := 0#10
          txBit := 0#4
          txHalf := false
          seq := 0x5#4 }

/-- R182: one half-cell is sent and the position moves on. -/
def Obligations.HalfCellStep : Prop :=
  ∀ (s : State) (v : Byte), Ready s → frameByte s s.txIdx.toNat = some v →
    let l := cellLevel s.cfg v s.txBit.toNat s.txHalf
    let lastBit : Prop := s.txBit.toNat + 1 = cells s.cfg
    let lastByte : Prop := s.txIdx.toNat + 1 = flen s
    exec .tCell s = .next { s with
      line := l
      trace := s.trace ++ [.half l]
      txHalf := !s.txHalf
      txBit := if s.txHalf = true then (if lastBit then 0#4 else s.txBit + 1#4) else s.txBit
      txIdx := if s.txHalf = true ∧ lastBit ∧ ¬ lastByte then s.txIdx + 1#10 else s.txIdx
      seq := if s.txHalf = true ∧ lastBit ∧ lastByte then 0x6#4 else s.seq }

/-- R33, R155: the byte of `pbuf` that `tx_idx` selects is the frame byte that `T_CELL` sends; every other
index of the frame has a byte; `T_CELL` stops exactly at a payload index that `pbuf` does not have, so never
while `pbuf` has its `PAYLOAD_MAX` bytes. That it stops there, and by which name, is the model's choice
(notes/assumptions/3.md). -/
def Obligations.CellStopsOnlyOutsideTheBuffer : Prop :=
  ∀ s : State, Ready s →
    (∀ j, selectsPayload s j → s.pbuf.length ≤ j →
      exec .tCell s = .fault .noSuchPayloadByte)
    ∧ (∀ j, selectsPayload s j → ∀ h : j < s.pbuf.length,
      frameByte s s.txIdx.toNat = some s.pbuf[j] ∧ ∃ t, exec .tCell s = .next t)
    ∧ ((∀ j, ¬ selectsPayload s j) → ∃ t, exec .tCell s = .next t)
    ∧ (s.pbuf.length = s.cfg.payloadMax → ∃ t, exec .tCell s = .next t)

/-- R184: the end of a copy, with and without a further copy. -/
def Obligations.CopyEndStep : Prop :=
  ∀ s : State, Ready s →
    (s.txRep.toNat + 1 < s.cfg.copies →
      exec .tEnd s = .next { s with
        line := false
        trace := s.trace ++ [.idle, .guard]
        txIdx := 0#10
        txBit := 0#4
        txHalf := false
        txRep := s.txRep + 1#8
        seq := 0x5#4 })
    ∧ (s.cfg.copies ≤ s.txRep.toNat + 1 →
      exec .tEnd s = .next { s with
        line := false
        trace := s.trace ++ [.idle]
        txIdx := 0#10
        txBit := 0#4
        txHalf := false
        txRep := 0#8
        seq := 0x7#4 })

/-- R183: the levels of a byte's cells, k outer, h inner, are its half-cells. -/
def Obligations.CellLevelsAreTheHalfCells : Prop :=
  ∀ (c : Cfg) (v : Byte),
    (List.range (cells c)).flatMap (fun k => [cellLevel c v k false, cellLevel c v k true])
      = byteHalfcells c v

/-- R155, R154, R97: the bytes selected one by one are the frame, or the stream. -/
def Obligations.SelectedBytesAreTheFrame : Prop :=
  ∀ (s : State) (p : List Byte), HoldsPayload s p →
    (s.cfg.profile = .manchFramed →
      (List.range (flen s)).map (frameByte s) = (frameBytes s.cfg p s.crcReg).map some)
    ∧ (s.cfg.profile = .bitSerial →
      (List.range (flen s)).map (frameByte s) = (streamBytes p s.crcReg).map some)
    ∧ ∀ i, flen s ≤ i → frameByte s i = none

/-- R182, R164: the `2 * CELLS` steps of one byte send exactly the byte's half-cells. -/
def Obligations.StepsOfOneByteSendItsHalfCells : Prop :=
  ∀ (s : State) (v : Byte), Ready s → s.agenda = [] → s.seq = 0x5#4 → s.txBit = 0#4 →
    s.txHalf = false → frameByte s s.txIdx.toNat = some v →
    runSteps (2 * cells s.cfg) s = .next { s with
      line := (byteHalfcells s.cfg v).getLastD false
      trace := s.trace ++ (byteHalfcells s.cfg v).map Event.half
      txIdx := if s.txIdx.toNat + 1 < flen s then s.txIdx + 1#10 else s.txIdx
      seq := if s.txIdx.toNat + 1 < flen s then 0x5#4 else 0x6#4 }

/-- R185: from the state `T_BUILD` leaves, the steps up to `P_CHECK` emit exactly `tx_trace`, in
`REPEAT * (2 * CELLS * FLEN + 1)` steps, and leave the line idle and the counters 0. -/
def Obligations.StepsEmitTheTransmission : Prop :=
  ∀ s : State, Ready s → PayloadInBuffer s → s.agenda = [] → s.seq = 0x5#4 →
    s.txRep = 0#8 → s.txIdx = 0#10 → s.txBit = 0#4 → s.txHalf = false →
    runSteps (txSteps s.cfg (flen s)) s = .next { s with
      seq := 0x7#4
      line := false
      trace := s.trace ++ txTrace s }

/-- R181, R295: the same whatever the `ISR` agent does meanwhile: expiries served at any points of the
transmission change the wake flag alone. -/
def Obligations.TransmissionIgnoresExpiries : Prop :=
  ∀ s : State, Ready s → PayloadInBuffer s → s.seq = 0x5#4 →
    s.txRep = 0#8 → s.txIdx = 0#10 → s.txBit = 0#4 → s.txHalf = false →
    (∀ m ∈ s.agenda, m = .main ∨ m = .expiry) →
    s.agenda.count .main = txSteps s.cfg (flen s) →
    runSteps s.agenda.length s = .next { s with
      seq := 0x7#4
      line := false
      trace := s.trace ++ txTrace s
      agenda := []
      wakeFlag := s.wakeFlag || decide (Move.expiry ∈ s.agenda) }

/-- R180: the numbers of events of a transmission. -/
def Obligations.TransmissionEventCounts : Prop :=
  ∀ s : State, s.cfg.wf = true → PayloadInBuffer s →
    (txTrace s).countP (fun e => e = .half true ∨ e = .half false)
        = s.cfg.copies * (2 * cells s.cfg * flen s)
      ∧ (txTrace s).count .idle = s.cfg.copies
      ∧ (txTrace s).count .guard = s.cfg.copies - 1
      ∧ (txTrace s).length = s.cfg.copies * (2 * cells s.cfg * flen s) + 2 * s.cfg.copies - 1

/-- R350, R188: how long the transmission of the 21-byte payload lasts in profile `MANCH_FRAMED`. -/
def Obligations.TransmissionDuration : Prop :=
  ∀ s : State, s.cfg.wf = true → PayloadInBuffer s → s.plen = 21#8 →
    s.cfg.profile = .manchFramed →
    ((txTrace s).map (Event.twiceDuration s.cfg)).sum
      = 2 * (s.cfg.copies * ((s.cfg.k + 27) * 8 * s.cfg.bitPeriod)
          + (s.cfg.copies - 1) * s.cfg.guardTime)

/-! ## The codec -/

/-- R160: half of the half-cells of a copy are 1, every bit cell has a level change between its two
half-cells, and no three half-cells in a row have the same level. -/
def Obligations.ManchesterIsBalancedAndSelfClocking : Prop :=
  ∀ (msb : Bool) (bs : List Byte),
    let h := bs.flatMap (manchByte msb)
    h.count true = 8 * bs.length ∧ h.count false = 8 * bs.length
      ∧ (∀ i, 2 * i + 1 < h.length → h[2 * i]? ≠ h[2 * i + 1]?)
      ∧ ∀ i, i + 2 < h.length → ¬ (h[i]? = h[i + 1]? ∧ h[i + 1]? = h[i + 2]?)

/-- 95_test_vectors.md §1 item 2: the reference decoder recovers every payload that fits, from the
half-cells of its frame, under every configuration. -/
def Obligations.ReferenceDecoderRecoversThePayload : Prop :=
  ∀ (c : Cfg) (p : List Byte), c.wf = true → p.length ≤ c.payloadMax →
    referenceDecode c ((frameBytes c p (crc16 p)).flatMap (manchByte c.manchMsbFirst)) = some p

/-- 95_test_vectors.md §2.1: the residue of a payload followed by its CRC, high byte first, is 0. -/
def Obligations.CrcResidueIsZero : Prop :=
  ∀ p : List Byte, crc16 (p ++ [crcHigh (crc16 p), crcLow (crc16 p)]) = 0#16

/-- R153: a corruption of the payload and the CRC field that is confined to two neighbouring bytes, any
single-bit change among them, is a mismatch at a receiver. -/
def Obligations.CrcDetectsShortBursts : Prop :=
  ∀ (p pre post : List Byte) (a b x y : Byte),
    p ++ [crcHigh (crc16 p), crcLow (crc16 p)] = pre ++ [a, b] ++ post → (x, y) ≠ (a, b) →
    crc16 (pre ++ [x, y] ++ post) ≠ 0#16

/-! ## The payload's numbers -/

/-- R260: a field is the scaled product truncated toward zero and saturated to an `i32`; a NaN gives
0. -/
def Obligations.FixedPointTruncatesAndSaturates : Prop :=
  ∀ x scale : F32, scale = 0x42C80000#32 ∨ scale = 0x447A0000#32 →
    (isnan x = true → fix32 x scale = 0x00000000#32)
    ∧ (isnan x = false →
      fix32 x scale = BitVec.ofInt 32
        (max (-2 ^ 31) (min (2 ^ 31 - 1) ((value (fmul x scale)).tdiv (2 ^ 149)))))

/-- R10: rounding is to a nearest finite magnitude, and to the even one of two equally near; the
result is an infinity exactly from half a unit past the largest finite magnitude on. -/
def Obligations.RoundingIsToNearestEven : Prop :=
  ∀ num den : Nat, 0 < den →
    (roundMag num den < infMag → ∀ y : Nat, y < infMag →
      let dr := ((unitsOf (roundMag num den) * den : Nat) - (num : Int)).natAbs
      let dy := ((unitsOf y * den : Nat) - (num : Int)).natAbs
      dr ≤ dy ∧ (dr = dy → y = roundMag num den ∨ roundMag num den % 2 = 0))
    ∧ (roundMag num den = infMag ↔ (2 ^ 25 - 1) * 2 ^ 252 * den ≤ num)

/-! ## Persisting -/

/-- R203, R228, R63: the threshold test, the write of four bytes least significant first, and
everything else as it was. -/
def Obligations.ThresholdGatedPersist : Prop :=
  ∀ s : State, Ready s →
    (fge (fabs (fsub s.acc s.wm)) s.cfg.persistThreshold = true →
      ∃ t, exec .pCheck s = .next t
        ∧ (∀ a, readByte t.nv a =
          if s.cfg.nvOffset ≤ a ∧ a < s.cfg.nvOffset + 4 then
            some ((s.acc >>> (8 * (a - s.cfg.nvOffset))).setWidth 8)
          else readByte s.nv a)
        ∧ { t with nv := s.nv, nvInFlight := s.nvInFlight } = { s with
          wm := s.acc
          didWrite := true
          sleepCnt := 0#8
          seq := 0x8#4
          trace := s.trace ++ [.nvWr s.cfg.nvOffset (s.acc.setWidth 8) ((s.acc >>> 8).setWidth 8)
            ((s.acc >>> 16).setWidth 8) ((s.acc >>> 24).setWidth 8)] })
    ∧ (fge (fabs (fsub s.acc s.wm)) s.cfg.persistThreshold = false →
      exec .pCheck s = .next { s with didWrite := false, sleepCnt := 0#8, seq := 0x8#4 })

/-- R64: a value in [0, 1e6] that `P_CHECK` wrote, the platform having completed the write, is what the
boot after a power-on reset loads. The completion as a move of its own, and the store's own bytes as the
answer where nothing is scripted, are the model's choice (notes/assumptions/6.md, 15.md). -/
def Obligations.PersistedValueSurvivesReset : Prop :=
  ∀ s : State, Ready s → s.seq = 0x7#4 → s.agenda = [.main, .nvDone, .powerOn, .main] →
    s.nvIn = [] → answered s.nowIn = true → drifted s = true →
    fge s.acc 0x00000000#32 = true → fle s.acc 0x49742400#32 = true →
    ∃ t, runSteps 4 s = .next t ∧ t.acc = s.acc ∧ t.wm = s.acc ∧ t.seq = 0x1#4

/-- R206: a step changes no byte of the store but the four at `NV_OFFSET`, and those only in `P_CHECK`
past the threshold, or when a reset cuts such a write short. -/
def Obligations.StoreIsTouchedByPersistAlone : Prop :=
  ∀ (s t : State) (a : Nat), step s = .next t → readByte t.nv a ≠ readByte s.nv a →
    s.cfg.nvOffset ≤ a ∧ a < s.cfg.nvOffset + 4
      ∧ ((nextMove s = .main ∧ s.seq = 0x7#4 ∧ drifted s = true)
        ∨ (nextMove s = .powerOn ∧ s.nvInFlight = true))

/-! ## Sleeping -/

/-- R229: clear, arm, halt, in one step and in this order. -/
def Obligations.ArmAndHaltStep : Prop :=
  ∀ s : State, Ready s →
    exec .sArm s = .next { s with
      wakeFlag := false
      trace := s.trace ++ [.armTimer, .halt]
      halted := true
      seq := 0x9#4 }

/-- R230, R231: with the flag 1 the wake, which does not clear the flag, and its two successors; with
the flag 0 there is no step, which the model shows as one that changes nothing (its choice,
notes/assumptions/11.md). -/
def Obligations.WakeStep : Prop :=
  ∀ s : State, Ready s →
    (s.wakeFlag = true →
      exec .sHalt s = .next { s with
        halted := false
        trace := s.trace ++ [.wake]
        sleepCnt := s.sleepCnt + 1#8
        seq := if s.sleepCnt.toNat + 1 < s.cfg.sleepIntervals then 0x8#4 else 0x1#4 })
    ∧ (s.wakeFlag = false → exec .sHalt s = .next s)

/-- R231, R336: halted with the flag 0, `MAIN` has no step: however often it is to move, the block
stays as it is. The agenda, and a step that changes nothing, are the model's choice
(notes/assumptions/5.md, 11.md). -/
def Obligations.NoExpiryNoWake : Prop :=
  ∀ (n : Nat) (s : State), Ready s → s.seq = 0x9#4 → s.wakeFlag = false →
    s.agenda = List.replicate n .main → runSteps n s = .next { s with agenda := [] }

/-- R232, R296: `SLEEP_INTERVALS` intervals, each with any number of expiries before `S_ARM` and at least
one after it, lead to the next Measuring, with one wake an interval. -/
def Obligations.SleepTakesExactlyTheIntervals : Prop :=
  ∀ (s : State) (ab : List (Nat × Nat)), Ready s → s.seq = 0x8#4 → s.sleepCnt = 0#8 →
    ab.length = s.cfg.sleepIntervals → s.agenda = ab.flatMap intervalMoves →
    runSteps s.agenda.length s = .next { s with
      seq := 0x1#4
      sleepCnt := BitVec.ofNat 8 s.cfg.sleepIntervals
      halted := false
      wakeFlag := true
      trace := s.trace ++ sleepEvents s.cfg
      agenda := [] }

/-! ## Whole cycles -/

/-- R233, R348: the undervoltage cycle from one Measuring to the next: the request, `Diag(2)` and the sleep,
no line event and no store write; the measurement and its energy are kept. -/
def Obligations.UndervoltageCycle : Prop :=
  ∀ (s : State) (r : MeasResp) (q : List (Option MeasResp)) (ab : List (Nat × Nat)),
    Ready s → s.seq = 0x1#4 → s.measIn = some r :: q → flt r.vbat s.cfg.vbatFloor = true →
    answered s.nowIn = true → ab.length = s.cfg.sleepIntervals →
    s.agenda = List.replicate 3 .main ++ ab.flatMap intervalMoves →
    let now := answerOr (Config.freeNow (s.draws + 1)) s.nowIn
    runSteps s.agenda.length s = .next { s with
      vrms := r.vrms
      irms := r.irms
      vbat := r.vbat
      power := fmul r.vrms r.irms
      acc := integrated s (fmul r.vrms r.irms) now
      lastTs := now
      uv := true
      seq := 0x1#4
      sleepCnt := BitVec.ofNat 8 s.cfg.sleepIntervals
      halted := false
      wakeFlag := true
      trace := s.trace ++ [.measReq, .diag 2] ++ sleepEvents s.cfg
      agenda := []
      measIn := q
      nowIn := s.nowIn.tail
      draws := s.draws + 2 }

/-- R233: the normal cycle from one Measuring to the next: the request, the transmission of the frame in
the registers, the store write exactly when `did_write` becomes 1, and the sleep. -/
def Obligations.NormalCycle : Prop :=
  ∀ (s : State) (r : MeasResp) (q : List (Option MeasResp)) (ab : List (Nat × Nat)),
    Inv s → s.seq = 0x1#4 → s.measIn = some r :: q → flt r.vbat s.cfg.vbatFloor = false →
    answered s.nowIn = true → ab.length = s.cfg.sleepIntervals →
    s.agenda = List.replicate (5 + txSteps s.cfg (flen21 s.cfg)) .main ++ ab.flatMap intervalMoves →
    ∃ t, runSteps s.agenda.length s = .next t ∧ t.seq = 0x1#4 ∧ t.plen = 21#8
      ∧ t.trace = s.trace ++ [.measReq] ++ txTrace t
          ++ (if t.didWrite then [Event.nvWr s.cfg.nvOffset (byteOf t.acc 0) (byteOf t.acc 1)
                (byteOf t.acc 2) (byteOf t.acc 3)] else [])
          ++ sleepEvents s.cfg

/-! ## The interrupt and the stops -/

/-- R291, R297: the `ISR` step is the one assignment. -/
def Obligations.InterruptSetsTheFlagAlone : Prop :=
  ∀ s : State, s.cfg.wf = true → exec .isr s = .next { s with wakeFlag := true }

/-- R38, R295: outside Sleeping no step of `MAIN` depends on the wake flag or touches it: an expiry
served before the step is as one served after it. -/
def Obligations.ExpiryCommutesWithMain : Prop :=
  ∀ (i : Instr) (s : State),
    i ∈ [.bLoad, .mMeas, .mInteg, .mGate, .tBuild, .tCell, .tEnd, .pCheck] →
    exec i { s with wakeFlag := true } =
      match exec i s with
      | .next t => .next { t with wakeFlag := true }
      | .fault f => .fault f
      | .refused r => .refused r

/-- R122: a reserved code has no step, in whatever state it stands, and no step leads from the other codes
to one, so none is reached from reset. That it faults under an ill-formed configuration too is the model's
reading (notes/assumptions/12.md). -/
def Obligations.ReservedCodesFault : Prop :=
  (∀ (x : BitVec 1) (s : State), exec (.seqReservedAB x) s = .fault .seqReserved)
    ∧ (∀ (x : BitVec 2) (s : State), exec (.seqReservedCF x) s = .fault .seqReserved)
    ∧ (∀ s : State, nextMove s = .main → 10 ≤ s.seq.toNat → step s = .fault .seqReserved)
    ∧ State.reset.seq.toNat ≤ 9
    ∧ ∀ s t : State, s.seq.toNat ≤ 9 → step s = .next t → t.seq.toNat ≤ 9

/-- R123: each of the ten sequencer steps faults on a counter out of its range. That the test stands before
every step of `MAIN` is the model's reading (notes/assumptions/12.md). -/
def Obligations.CounterOutOfRangeFaults : Prop :=
  ∀ (i : Instr) (s : State),
    i ∈ [.bLoad, .mMeas, .mInteg, .mGate, .tBuild, .tCell, .tEnd, .pCheck, .sArm, .sHalt] →
    s.cfg.wf = true →
    (cells s.cfg ≤ s.txBit.toNat ∨ flen s ≤ s.txIdx.toNat ∨ s.cfg.copies ≤ s.txRep.toNat
      ∨ s.cfg.sleepIntervals < s.sleepCnt.toNat ∨ s.cfg.payloadMax < s.plen.toNat) →
    exec i s = .fault .counterRange

/-- R9, R167, R266: a configuration that is not well-formed is refused by every instruction but the
reserved codes. Where the refusal stands is the model's choice (notes/assumptions/12.md, 14.md). -/
def Obligations.IllFormedConfigurationIsRefused : Prop :=
  ∀ (i : Instr) (s : State), (∀ x, i ≠ .seqReservedAB x) → (∀ x, i ≠ .seqReservedCF x) →
    (s.cfg.copies = 0 ∨ s.cfg.sleepIntervals = 0 ∨ s.cfg.payloadMax < 21 ∨ 255 < s.cfg.payloadMax
      ∨ 255 < s.cfg.k ∨ isfinite s.cfg.persistThreshold = false
      ∨ flt 0x00000000#32 s.cfg.persistThreshold = false ∨ isfinite s.cfg.vbatFloor = false
      ∨ isfinite s.cfg.elapsedFallback = false ∨ fge s.cfg.elapsedFallback 0x00000000#32 = false
      ∨ s.cfg.transport = .vendorDriver ∨ s.cfg.payloadFormat = .text) →
    exec i s = .refused .configIllFormed

/-! ## The words of the line, the payload, the store and the frame -/

/-- R158, R159, R163, R95, R96: a line word drives the line through exactly the levels of its encoding,
each cell of the serial word for two half-cells, and changes nothing but the line and the trace. The
effect of these words by themselves is the model's choice (notes/assumptions/9.md). -/
def Obligations.LineWordsDriveTheLine : Prop :=
  ∀ (s : State) (v : Byte), s.cfg.wf = true →
    exec .manch1 s = .next { s with line := false, trace := s.trace ++ [.half true, .half false] }
    ∧ exec .manch0 s = .next { s with line := true, trace := s.trace ++ [.half false, .half true] }
    ∧ exec (.manchByteMsb v) s = .next { s with
        line := !v.getLsbD 0
        trace := s.trace ++ (encode s.cfg (.manchByteMsb v)).2.map Event.half }
    ∧ exec (.manchByteLsb v) s = .next { s with
        line := !v.getLsbD 7
        trace := s.trace ++ (encode s.cfg (.manchByteLsb v)).2.map Event.half }
    ∧ exec (.serByte v) s = .next { s with
        line := !s.cfg.serStartLevel
        trace := s.trace
          ++ ((encode s.cfg (.serByte v)).2.flatMap fun l => [l, l]).map Event.half }

/-- R90, R91, R159: a frame word is sent byte by byte in the Manchester code, the CRC high byte
first. The effect of these words by themselves is the model's choice (notes/assumptions/9.md). -/
def Obligations.FrameWordsDriveTheLine : Prop :=
  ∀ (s : State) (a b l p : Byte) (crc : BitVec 16), s.cfg.wf = true →
    let bit := if s.cfg.manchMsbFirst then 0 else 7
    exec (.frameHead a b l) s = .next { s with
      line := !l.getLsbD bit
      trace := s.trace ++ ([a, b, l].flatMap (manchByte s.cfg.manchMsbFirst)).map Event.half }
    ∧ exec (.frameTail crc p) s = .next { s with
      line := !p.getLsbD bit
      trace := s.trace
        ++ ([(crc >>> 8).setWidth 8, crc.setWidth 8, p].flatMap
              (manchByte s.cfg.manchMsbFirst)).map Event.half }

/-- R93, R94: the payload word is laid down in `pbuf`, each field least significant byte first. The effect of
this word by itself is the model's choice (notes/assumptions/9.md). -/
def Obligations.PayloadWordIsLaidDown : Prop :=
  ∀ (s : State) (d : Byte) (v i p e b : BitVec 32), s.cfg.wf = true →
    ∃ t, exec (.payloadBin d v i p e b) s = .next t
      ∧ payloadByte t 0 = some d
      ∧ (∀ f j, f < 5 → j < 4 → payloadByte t (1 + 4 * f + j)
          = some (([v, i, p, e, b].getD f 0#32 >>> (8 * j)).setWidth 8))
      ∧ (∀ a, 21 ≤ a → payloadByte t a = payloadByte s a)
      ∧ { t with pbuf := s.pbuf } = { s with plen := 21#8 }

/-- R99, R63: the persisted word is stored least significant byte first, with one `NvWr`. The effect of this
word by itself, and `nvInFlight`, are the model's choice (notes/assumptions/6.md, 9.md). -/
def Obligations.PersistedWordIsStored : Prop :=
  ∀ (s : State) (u : BitVec 32), s.cfg.wf = true →
    ∃ t, exec (.nvF32 u) s = .next t
      ∧ (∀ a, readByte t.nv a =
        if s.cfg.nvOffset ≤ a ∧ a < s.cfg.nvOffset + 4 then
          some ((u >>> (8 * (a - s.cfg.nvOffset))).setWidth 8)
        else readByte s.nv a)
      ∧ { t with nv := s.nv } = { s with
        nvInFlight := true
        trace := s.trace ++ [.nvWr s.cfg.nvOffset (u.setWidth 8) ((u >>> 8).setWidth 8)
          ((u >>> 16).setWidth 8) ((u >>> 24).setWidth 8)] }

/-! ## Decoding -/

/-- Decoding an encoded well-formed instruction gives it back, with every operand at every value. -/
def Obligations.DecodeOfEncode : Prop :=
  ∀ (c : Cfg) (i : Instr), i.wellFormed c = true →
    decode c (encode c i).1 (encode c i).2 = .ok i

/-- A word that decodes is the encoding of a well-formed instruction: no word has two meanings and no
bit of an accepted word is dropped. -/
def Obligations.EncodeOfDecode : Prop :=
  ∀ (c : Cfg) (f : Format) (bs : List Bool) (i : Instr), decode c f bs = .ok i →
    i.wellFormed c = true ∧ encode c i = (f, bs)

/-- R120, R121: words of the table and the instructions they stand for. -/
def Obligations.DecodingOfTableWords : Prop :=
  decode Cfg.example .seq [false, false, false, false] = .ok .bLoad
    ∧ decode Cfg.example .seq [false, true, false, true] = .ok .tCell
    ∧ decode Cfg.example .seq [true, false, false, true] = .ok .sHalt
    ∧ decode Cfg.example .seq [true, true, false, true] = .ok (.seqReservedCF 1#2)
    ∧ decode Cfg.example .manchCell [true, false] = .ok .manch1
    ∧ decode Cfg.example .manchCell [true, true] = .error .codeViolation

/-! ## The machine -/

/-- R231, R291: a step of `MAIN` runs the instruction that the word in `seq` decodes to, a step of `ISR`
the interrupt's; around it the step only takes the move off the agenda. -/
def Obligations.StepRunsTheDecodedInstruction : Prop :=
  ∀ (s : State) (i : Instr),
    (nextMove s = .main → decode s.cfg .seq (toBits 4 s.seq) = .ok i →
      step s = exec i { s with agenda := s.agenda.tail })
    ∧ (nextMove s = .expiry → step s = exec .isr { s with agenda := s.agenda.tail })

/-- R234: the whole transition relation of `seq`. A draw that is not answered leaves it (R222, R231); the
expiry and the store's completion leave it; the reset makes it `B_LOAD`. -/
def Obligations.SequencerTransitions : Prop :=
  ∀ s t : State, step s = .next t →
    (nextMove s = .main →
      (s.seq = 0x0#4 →
        t.seq = if answered s.nvIn = true ∧ answered s.nowIn = true then 0x1#4 else 0x0#4)
      ∧ (s.seq = 0x1#4 → t.seq = if answered s.measIn = true then 0x2#4 else 0x1#4)
      ∧ (s.seq = 0x2#4 → t.seq = if answered s.nowIn = true then 0x3#4 else 0x2#4)
      ∧ (s.seq = 0x3#4 → t.seq = if flt s.vbat s.cfg.vbatFloor = true then 0x8#4 else 0x4#4)
      ∧ (s.seq = 0x4#4 → t.seq = 0x5#4)
      ∧ (s.seq = 0x5#4 → t.seq =
          if s.txHalf = true ∧ s.txBit.toNat + 1 = cells s.cfg ∧ s.txIdx.toNat + 1 = flen s
          then 0x6#4 else 0x5#4)
      ∧ (s.seq = 0x6#4 → t.seq = if s.txRep.toNat + 1 < s.cfg.copies then 0x5#4 else 0x7#4)
      ∧ (s.seq = 0x7#4 → t.seq = 0x8#4)
      ∧ (s.seq = 0x8#4 → t.seq = 0x9#4)
      ∧ (s.seq = 0x9#4 → t.seq =
          if s.wakeFlag = true then
            (if s.sleepCnt.toNat + 1 < s.cfg.sleepIntervals then 0x8#4 else 0x1#4)
          else 0x9#4)
      ∧ s.seq.toNat ≤ 9)
    ∧ (nextMove s = .expiry ∨ nextMove s = .nvDone → t.seq = s.seq)
    ∧ (nextMove s = .powerOn → t.seq = 0x0#4)

/-- R23 to R34, R38: which steps may change which register. Interrupt context changes the wake flag
alone. -/
def Obligations.RegistersHaveTheirWritersOnly : Prop :=
  ∀ s t : State, step s = .next t →
    (nextMove s = .main →
      (t.acc ≠ s.acc → s.seq = 0x0#4 ∨ s.seq = 0x2#4)
      ∧ (t.wm ≠ s.wm → s.seq = 0x0#4 ∨ s.seq = 0x7#4)
      ∧ (t.lastTs ≠ s.lastTs → s.seq = 0x0#4 ∨ s.seq = 0x2#4)
      ∧ (t.vrms ≠ s.vrms ∨ t.irms ≠ s.irms ∨ t.vbat ≠ s.vbat → s.seq = 0x1#4)
      ∧ (t.power ≠ s.power → s.seq = 0x2#4)
      ∧ (t.pbuf ≠ s.pbuf ∨ t.plen ≠ s.plen ∨ t.crcReg ≠ s.crcReg → s.seq = 0x4#4)
      ∧ (t.txRep ≠ s.txRep → s.seq = 0x4#4 ∨ s.seq = 0x6#4)
      ∧ (t.txIdx ≠ s.txIdx ∨ t.txBit ≠ s.txBit ∨ t.txHalf ≠ s.txHalf →
          s.seq = 0x4#4 ∨ s.seq = 0x5#4 ∨ s.seq = 0x6#4)
      ∧ (t.line ≠ s.line → s.seq = 0x5#4 ∨ s.seq = 0x6#4)
      ∧ (t.sleepCnt ≠ s.sleepCnt → s.seq = 0x3#4 ∨ s.seq = 0x7#4 ∨ s.seq = 0x9#4)
      ∧ (t.uv ≠ s.uv → s.seq = 0x3#4)
      ∧ (t.didWrite ≠ s.didWrite → s.seq = 0x7#4)
      ∧ (t.halted ≠ s.halted → s.seq = 0x8#4 ∨ s.seq = 0x9#4)
      ∧ (t.wakeFlag ≠ s.wakeFlag → s.seq = 0x8#4 ∧ t.wakeFlag = false))
    ∧ (nextMove s = .expiry →
      t = { s with wakeFlag := true, agenda := s.agenda.tail })
    ∧ t.cfg = s.cfg

/-- R330: what the power-on reset leaves, for the registers R39 gives a value; `pbuf` has its
`PAYLOAD_MAX` bytes; no event is emitted; the store keeps its bytes, but for a write that was in flight
(notes/assumptions/6.md), whose four bytes may be any. That the remaining registers, the bytes of `pbuf`
among them, hold zero is the model's choice (notes/assumptions/2.md) and is not stated here. -/
def Obligations.PowerOnReset : Prop :=
  ∀ s : State, nextMove s = .powerOn →
    ∃ t, step s = .next t
      ∧ t.seq = 0x0#4 ∧ t.txRep = 0#8 ∧ t.txIdx = 0#10 ∧ t.txBit = 0#4 ∧ t.txHalf = false
      ∧ t.sleepCnt = 0#8 ∧ t.wakeFlag = false ∧ t.halted = false ∧ t.uv = false
      ∧ t.didWrite = false ∧ t.line = false ∧ t.plen = 0#8
      ∧ t.pbuf.length = s.cfg.payloadMax
      ∧ t.cfg = s.cfg ∧ t.trace = s.trace
      ∧ (s.nvInFlight = false → t.nv = s.nv)
      ∧ (∀ a, ¬ (s.cfg.nvOffset ≤ a ∧ a < s.cfg.nvOffset + 4) →
          readByte t.nv a = readByte s.nv a)

/-- The block right after reset, under any well-formed configuration, meets the invariant. That `acc` and `wm`
are finite there rests on the zeros the model chooses for them (notes/assumptions/2.md), and the configuration
of `State.reset` is its choice too (notes/assumptions/1.md). -/
def Obligations.ResetMeetsTheInvariant : Prop :=
  Inv State.reset ∧ ∀ c : Cfg, c.wf = true → Inv (State.resetWith c)

/-- Every step from a state that meets the invariant leads to one that meets it, whatever the
environment does. After a power-on reset `acc` and `wm` are finite by the zeros the model chooses for them
(notes/assumptions/2.md; R39 gives them no value), and a step at which `MAIN` waits is the model's choice
(notes/assumptions/11.md). -/
def Obligations.StepKeepsTheInvariant : Prop :=
  ∀ s t : State, Inv s → step s = .next t → Inv t

/-- Derived: from a state that meets the invariant the model's step answers a next state, never a fault and never
a refusal. Where a draw is not answered, and in `S_HALT` with the flag 0 when `MAIN` moves, the rules give no step
(R130, R222, R231), and that the model answers a next state there, one that only uses up the move or the script
entry, is its choice (notes/assumptions/11.md); so is which agent moves when nothing is scripted
(notes/assumptions/5.md). -/
def Obligations.InvariantStatesNeverStop : Prop :=
  ∀ s : State, Inv s → ∃ t, step s = .next t

/-- R12, R70: events are only ever appended, and what a step appends is fixed by the sequencer state. -/
def Obligations.TraceOnlyGrows : Prop :=
  ∀ s t : State, step s = .next t →
    ∃ es : List Event, t.trace = s.trace ++ es ∧ es.length ≤ 2
      ∧ (nextMove s ≠ .main → es = [])
      ∧ (∀ l, Event.half l ∈ es → s.seq = 0x5#4)
      ∧ (Event.guard ∈ es ∨ Event.idle ∈ es → s.seq = 0x6#4)
      ∧ (∀ c, Event.diag c ∈ es → c = 2 ∧ s.seq = 0x3#4)
      ∧ (∀ o b0 b1 b2 b3, Event.nvWr o b0 b1 b2 b3 ∈ es → s.seq = 0x7#4 ∧ t.didWrite = true)
end

