-- ==== Sys2Proof/Laws/State.lean ====
section
/-! SUPPORT. The small lemmas of the state: one per field and per named update, true by definition, so
that no later proof unfolds an update. -/

namespace Sys2Proof.Machine

variable (s : State)

/-! ### emit -/

@[simp] theorem emit_cfg (e : Event) : (emit s e).cfg = s.cfg := rfl
@[simp] theorem emit_seq (e : Event) : (emit s e).seq = s.seq := rfl
@[simp] theorem emit_txRep (e : Event) : (emit s e).txRep = s.txRep := rfl
@[simp] theorem emit_txIdx (e : Event) : (emit s e).txIdx = s.txIdx := rfl
@[simp] theorem emit_txBit (e : Event) : (emit s e).txBit = s.txBit := rfl
@[simp] theorem emit_txHalf (e : Event) : (emit s e).txHalf = s.txHalf := rfl
@[simp] theorem emit_sleepCnt (e : Event) : (emit s e).sleepCnt = s.sleepCnt := rfl
@[simp] theorem emit_wakeFlag (e : Event) : (emit s e).wakeFlag = s.wakeFlag := rfl
@[simp] theorem emit_halted (e : Event) : (emit s e).halted = s.halted := rfl
@[simp] theorem emit_uv (e : Event) : (emit s e).uv = s.uv := rfl
@[simp] theorem emit_didWrite (e : Event) : (emit s e).didWrite = s.didWrite := rfl
@[simp] theorem emit_line (e : Event) : (emit s e).line = s.line := rfl
@[simp] theorem emit_plen (e : Event) : (emit s e).plen = s.plen := rfl
@[simp] theorem emit_pbuf (e : Event) : (emit s e).pbuf = s.pbuf := rfl
@[simp] theorem emit_crcReg (e : Event) : (emit s e).crcReg = s.crcReg := rfl
@[simp] theorem emit_vrms (e : Event) : (emit s e).vrms = s.vrms := rfl
@[simp] theorem emit_irms (e : Event) : (emit s e).irms = s.irms := rfl
@[simp] theorem emit_vbat (e : Event) : (emit s e).vbat = s.vbat := rfl
@[simp] theorem emit_power (e : Event) : (emit s e).power = s.power := rfl
@[simp] theorem emit_acc (e : Event) : (emit s e).acc = s.acc := rfl
@[simp] theorem emit_wm (e : Event) : (emit s e).wm = s.wm := rfl
@[simp] theorem emit_lastTs (e : Event) : (emit s e).lastTs = s.lastTs := rfl
@[simp] theorem emit_nv (e : Event) : (emit s e).nv = s.nv := rfl
@[simp] theorem emit_nvInFlight (e : Event) : (emit s e).nvInFlight = s.nvInFlight := rfl
@[simp] theorem emit_trace (e : Event) : (emit s e).trace = s.trace ++ [e] := rfl
@[simp] theorem emit_agenda (e : Event) : (emit s e).agenda = s.agenda := rfl
@[simp] theorem emit_nvIn (e : Event) : (emit s e).nvIn = s.nvIn := rfl
@[simp] theorem emit_nowIn (e : Event) : (emit s e).nowIn = s.nowIn := rfl
@[simp] theorem emit_measIn (e : Event) : (emit s e).measIn = s.measIn := rfl
@[simp] theorem emit_draws (e : Event) : (emit s e).draws = s.draws := rfl

/-! ### drive -/

@[simp] theorem drive_cfg (l : Bool) : (drive s l).cfg = s.cfg := rfl
@[simp] theorem drive_seq (l : Bool) : (drive s l).seq = s.seq := rfl
@[simp] theorem drive_txRep (l : Bool) : (drive s l).txRep = s.txRep := rfl
@[simp] theorem drive_txIdx (l : Bool) : (drive s l).txIdx = s.txIdx := rfl
@[simp] theorem drive_txBit (l : Bool) : (drive s l).txBit = s.txBit := rfl
@[simp] theorem drive_txHalf (l : Bool) : (drive s l).txHalf = s.txHalf := rfl
@[simp] theorem drive_sleepCnt (l : Bool) : (drive s l).sleepCnt = s.sleepCnt := rfl
@[simp] theorem drive_wakeFlag (l : Bool) : (drive s l).wakeFlag = s.wakeFlag := rfl
@[simp] theorem drive_halted (l : Bool) : (drive s l).halted = s.halted := rfl
@[simp] theorem drive_uv (l : Bool) : (drive s l).uv = s.uv := rfl
@[simp] theorem drive_didWrite (l : Bool) : (drive s l).didWrite = s.didWrite := rfl
@[simp] theorem drive_line (l : Bool) : (drive s l).line = l := rfl
@[simp] theorem drive_plen (l : Bool) : (drive s l).plen = s.plen := rfl
@[simp] theorem drive_pbuf (l : Bool) : (drive s l).pbuf = s.pbuf := rfl
@[simp] theorem drive_crcReg (l : Bool) : (drive s l).crcReg = s.crcReg := rfl
@[simp] theorem drive_vrms (l : Bool) : (drive s l).vrms = s.vrms := rfl
@[simp] theorem drive_irms (l : Bool) : (drive s l).irms = s.irms := rfl
@[simp] theorem drive_vbat (l : Bool) : (drive s l).vbat = s.vbat := rfl
@[simp] theorem drive_power (l : Bool) : (drive s l).power = s.power := rfl
@[simp] theorem drive_acc (l : Bool) : (drive s l).acc = s.acc := rfl
@[simp] theorem drive_wm (l : Bool) : (drive s l).wm = s.wm := rfl
@[simp] theorem drive_lastTs (l : Bool) : (drive s l).lastTs = s.lastTs := rfl
@[simp] theorem drive_nv (l : Bool) : (drive s l).nv = s.nv := rfl
@[simp] theorem drive_nvInFlight (l : Bool) : (drive s l).nvInFlight = s.nvInFlight := rfl
@[simp] theorem drive_trace (l : Bool) : (drive s l).trace = s.trace ++ [.half l] := rfl
@[simp] theorem drive_agenda (l : Bool) : (drive s l).agenda = s.agenda := rfl
@[simp] theorem drive_nvIn (l : Bool) : (drive s l).nvIn = s.nvIn := rfl
@[simp] theorem drive_nowIn (l : Bool) : (drive s l).nowIn = s.nowIn := rfl
@[simp] theorem drive_measIn (l : Bool) : (drive s l).measIn = s.measIn := rfl
@[simp] theorem drive_draws (l : Bool) : (drive s l).draws = s.draws := rfl

/-! ### takeExpiry -/

@[simp] theorem takeExpiry_cfg : (takeExpiry s).cfg = s.cfg := rfl
@[simp] theorem takeExpiry_seq : (takeExpiry s).seq = s.seq := rfl
@[simp] theorem takeExpiry_txRep : (takeExpiry s).txRep = s.txRep := rfl
@[simp] theorem takeExpiry_txIdx : (takeExpiry s).txIdx = s.txIdx := rfl
@[simp] theorem takeExpiry_txBit : (takeExpiry s).txBit = s.txBit := rfl
@[simp] theorem takeExpiry_txHalf : (takeExpiry s).txHalf = s.txHalf := rfl
@[simp] theorem takeExpiry_sleepCnt : (takeExpiry s).sleepCnt = s.sleepCnt := rfl
@[simp] theorem takeExpiry_wakeFlag : (takeExpiry s).wakeFlag = true := rfl
@[simp] theorem takeExpiry_halted : (takeExpiry s).halted = s.halted := rfl
@[simp] theorem takeExpiry_uv : (takeExpiry s).uv = s.uv := rfl
@[simp] theorem takeExpiry_didWrite : (takeExpiry s).didWrite = s.didWrite := rfl
@[simp] theorem takeExpiry_line : (takeExpiry s).line = s.line := rfl
@[simp] theorem takeExpiry_plen : (takeExpiry s).plen = s.plen := rfl
@[simp] theorem takeExpiry_pbuf : (takeExpiry s).pbuf = s.pbuf := rfl
@[simp] theorem takeExpiry_crcReg : (takeExpiry s).crcReg = s.crcReg := rfl
@[simp] theorem takeExpiry_vrms : (takeExpiry s).vrms = s.vrms := rfl
@[simp] theorem takeExpiry_irms : (takeExpiry s).irms = s.irms := rfl
@[simp] theorem takeExpiry_vbat : (takeExpiry s).vbat = s.vbat := rfl
@[simp] theorem takeExpiry_power : (takeExpiry s).power = s.power := rfl
@[simp] theorem takeExpiry_acc : (takeExpiry s).acc = s.acc := rfl
@[simp] theorem takeExpiry_wm : (takeExpiry s).wm = s.wm := rfl
@[simp] theorem takeExpiry_lastTs : (takeExpiry s).lastTs = s.lastTs := rfl
@[simp] theorem takeExpiry_nv : (takeExpiry s).nv = s.nv := rfl
@[simp] theorem takeExpiry_nvInFlight : (takeExpiry s).nvInFlight = s.nvInFlight := rfl
@[simp] theorem takeExpiry_trace : (takeExpiry s).trace = s.trace := rfl
@[simp] theorem takeExpiry_agenda : (takeExpiry s).agenda = s.agenda := rfl
@[simp] theorem takeExpiry_nvIn : (takeExpiry s).nvIn = s.nvIn := rfl
@[simp] theorem takeExpiry_nowIn : (takeExpiry s).nowIn = s.nowIn := rfl
@[simp] theorem takeExpiry_measIn : (takeExpiry s).measIn = s.measIn := rfl
@[simp] theorem takeExpiry_draws : (takeExpiry s).draws = s.draws := rfl

/-! ### nvComplete -/

@[simp] theorem nvComplete_cfg : (nvComplete s).cfg = s.cfg := rfl
@[simp] theorem nvComplete_seq : (nvComplete s).seq = s.seq := rfl
@[simp] theorem nvComplete_txRep : (nvComplete s).txRep = s.txRep := rfl
@[simp] theorem nvComplete_txIdx : (nvComplete s).txIdx = s.txIdx := rfl
@[simp] theorem nvComplete_txBit : (nvComplete s).txBit = s.txBit := rfl
@[simp] theorem nvComplete_txHalf : (nvComplete s).txHalf = s.txHalf := rfl
@[simp] theorem nvComplete_sleepCnt : (nvComplete s).sleepCnt = s.sleepCnt := rfl
@[simp] theorem nvComplete_wakeFlag : (nvComplete s).wakeFlag = s.wakeFlag := rfl
@[simp] theorem nvComplete_halted : (nvComplete s).halted = s.halted := rfl
@[simp] theorem nvComplete_uv : (nvComplete s).uv = s.uv := rfl
@[simp] theorem nvComplete_didWrite : (nvComplete s).didWrite = s.didWrite := rfl
@[simp] theorem nvComplete_line : (nvComplete s).line = s.line := rfl
@[simp] theorem nvComplete_plen : (nvComplete s).plen = s.plen := rfl
@[simp] theorem nvComplete_pbuf : (nvComplete s).pbuf = s.pbuf := rfl
@[simp] theorem nvComplete_crcReg : (nvComplete s).crcReg = s.crcReg := rfl
@[simp] theorem nvComplete_vrms : (nvComplete s).vrms = s.vrms := rfl
@[simp] theorem nvComplete_irms : (nvComplete s).irms = s.irms := rfl
@[simp] theorem nvComplete_vbat : (nvComplete s).vbat = s.vbat := rfl
@[simp] theorem nvComplete_power : (nvComplete s).power = s.power := rfl
@[simp] theorem nvComplete_acc : (nvComplete s).acc = s.acc := rfl
@[simp] theorem nvComplete_wm : (nvComplete s).wm = s.wm := rfl
@[simp] theorem nvComplete_lastTs : (nvComplete s).lastTs = s.lastTs := rfl
@[simp] theorem nvComplete_nv : (nvComplete s).nv = s.nv := rfl
@[simp] theorem nvComplete_nvInFlight : (nvComplete s).nvInFlight = false := rfl
@[simp] theorem nvComplete_trace : (nvComplete s).trace = s.trace := rfl
@[simp] theorem nvComplete_agenda : (nvComplete s).agenda = s.agenda := rfl
@[simp] theorem nvComplete_nvIn : (nvComplete s).nvIn = s.nvIn := rfl
@[simp] theorem nvComplete_nowIn : (nvComplete s).nowIn = s.nowIn := rfl
@[simp] theorem nvComplete_measIn : (nvComplete s).measIn = s.measIn := rfl
@[simp] theorem nvComplete_draws : (nvComplete s).draws = s.draws := rfl

/-! ### popAgenda -/

@[simp] theorem popAgenda_cfg : (popAgenda s).cfg = s.cfg := rfl
@[simp] theorem popAgenda_seq : (popAgenda s).seq = s.seq := rfl
@[simp] theorem popAgenda_txRep : (popAgenda s).txRep = s.txRep := rfl
@[simp] theorem popAgenda_txIdx : (popAgenda s).txIdx = s.txIdx := rfl
@[simp] theorem popAgenda_txBit : (popAgenda s).txBit = s.txBit := rfl
@[simp] theorem popAgenda_txHalf : (popAgenda s).txHalf = s.txHalf := rfl
@[simp] theorem popAgenda_sleepCnt : (popAgenda s).sleepCnt = s.sleepCnt := rfl
@[simp] theorem popAgenda_wakeFlag : (popAgenda s).wakeFlag = s.wakeFlag := rfl
@[simp] theorem popAgenda_halted : (popAgenda s).halted = s.halted := rfl
@[simp] theorem popAgenda_uv : (popAgenda s).uv = s.uv := rfl
@[simp] theorem popAgenda_didWrite : (popAgenda s).didWrite = s.didWrite := rfl
@[simp] theorem popAgenda_line : (popAgenda s).line = s.line := rfl
@[simp] theorem popAgenda_plen : (popAgenda s).plen = s.plen := rfl
@[simp] theorem popAgenda_pbuf : (popAgenda s).pbuf = s.pbuf := rfl
@[simp] theorem popAgenda_crcReg : (popAgenda s).crcReg = s.crcReg := rfl
@[simp] theorem popAgenda_vrms : (popAgenda s).vrms = s.vrms := rfl
@[simp] theorem popAgenda_irms : (popAgenda s).irms = s.irms := rfl
@[simp] theorem popAgenda_vbat : (popAgenda s).vbat = s.vbat := rfl
@[simp] theorem popAgenda_power : (popAgenda s).power = s.power := rfl
@[simp] theorem popAgenda_acc : (popAgenda s).acc = s.acc := rfl
@[simp] theorem popAgenda_wm : (popAgenda s).wm = s.wm := rfl
@[simp] theorem popAgenda_lastTs : (popAgenda s).lastTs = s.lastTs := rfl
@[simp] theorem popAgenda_nv : (popAgenda s).nv = s.nv := rfl
@[simp] theorem popAgenda_nvInFlight : (popAgenda s).nvInFlight = s.nvInFlight := rfl
@[simp] theorem popAgenda_trace : (popAgenda s).trace = s.trace := rfl
@[simp] theorem popAgenda_agenda : (popAgenda s).agenda = s.agenda.tail := rfl
@[simp] theorem popAgenda_nvIn : (popAgenda s).nvIn = s.nvIn := rfl
@[simp] theorem popAgenda_nowIn : (popAgenda s).nowIn = s.nowIn := rfl
@[simp] theorem popAgenda_measIn : (popAgenda s).measIn = s.measIn := rfl
@[simp] theorem popAgenda_draws : (popAgenda s).draws = s.draws := rfl

/-! ### nvWrite -/

@[simp] theorem nvWrite_cfg (u : BitVec 32) : (nvWrite s u).cfg = s.cfg := rfl
@[simp] theorem nvWrite_seq (u : BitVec 32) : (nvWrite s u).seq = s.seq := rfl
@[simp] theorem nvWrite_txRep (u : BitVec 32) : (nvWrite s u).txRep = s.txRep := rfl
@[simp] theorem nvWrite_txIdx (u : BitVec 32) : (nvWrite s u).txIdx = s.txIdx := rfl
@[simp] theorem nvWrite_txBit (u : BitVec 32) : (nvWrite s u).txBit = s.txBit := rfl
@[simp] theorem nvWrite_txHalf (u : BitVec 32) : (nvWrite s u).txHalf = s.txHalf := rfl
@[simp] theorem nvWrite_sleepCnt (u : BitVec 32) : (nvWrite s u).sleepCnt = s.sleepCnt := rfl
@[simp] theorem nvWrite_wakeFlag (u : BitVec 32) : (nvWrite s u).wakeFlag = s.wakeFlag := rfl
@[simp] theorem nvWrite_halted (u : BitVec 32) : (nvWrite s u).halted = s.halted := rfl
@[simp] theorem nvWrite_uv (u : BitVec 32) : (nvWrite s u).uv = s.uv := rfl
@[simp] theorem nvWrite_didWrite (u : BitVec 32) : (nvWrite s u).didWrite = s.didWrite := rfl
@[simp] theorem nvWrite_line (u : BitVec 32) : (nvWrite s u).line = s.line := rfl
@[simp] theorem nvWrite_plen (u : BitVec 32) : (nvWrite s u).plen = s.plen := rfl
@[simp] theorem nvWrite_pbuf (u : BitVec 32) : (nvWrite s u).pbuf = s.pbuf := rfl
@[simp] theorem nvWrite_crcReg (u : BitVec 32) : (nvWrite s u).crcReg = s.crcReg := rfl
@[simp] theorem nvWrite_vrms (u : BitVec 32) : (nvWrite s u).vrms = s.vrms := rfl
@[simp] theorem nvWrite_irms (u : BitVec 32) : (nvWrite s u).irms = s.irms := rfl
@[simp] theorem nvWrite_vbat (u : BitVec 32) : (nvWrite s u).vbat = s.vbat := rfl
@[simp] theorem nvWrite_power (u : BitVec 32) : (nvWrite s u).power = s.power := rfl
@[simp] theorem nvWrite_acc (u : BitVec 32) : (nvWrite s u).acc = s.acc := rfl
@[simp] theorem nvWrite_wm (u : BitVec 32) : (nvWrite s u).wm = s.wm := rfl
@[simp] theorem nvWrite_lastTs (u : BitVec 32) : (nvWrite s u).lastTs = s.lastTs := rfl
@[simp] theorem nvWrite_nv (u : BitVec 32) : (nvWrite s u).nv = writeBytes s.nv s.cfg.nvOffset (leBytes u) := rfl
@[simp] theorem nvWrite_nvInFlight (u : BitVec 32) : (nvWrite s u).nvInFlight = true := rfl
@[simp] theorem nvWrite_trace (u : BitVec 32) : (nvWrite s u).trace = s.trace ++ [.nvWr s.cfg.nvOffset (byteOf u 0) (byteOf u 1) (byteOf u 2) (byteOf u 3)] := rfl
@[simp] theorem nvWrite_agenda (u : BitVec 32) : (nvWrite s u).agenda = s.agenda := rfl
@[simp] theorem nvWrite_nvIn (u : BitVec 32) : (nvWrite s u).nvIn = s.nvIn := rfl
@[simp] theorem nvWrite_nowIn (u : BitVec 32) : (nvWrite s u).nowIn = s.nowIn := rfl
@[simp] theorem nvWrite_measIn (u : BitVec 32) : (nvWrite s u).measIn = s.measIn := rfl
@[simp] theorem nvWrite_draws (u : BitVec 32) : (nvWrite s u).draws = s.draws := rfl

/-! ### layPayload -/

@[simp] theorem layPayload_cfg (bs : List Byte) : (layPayload s bs).cfg = s.cfg := rfl
@[simp] theorem layPayload_seq (bs : List Byte) : (layPayload s bs).seq = s.seq := rfl
@[simp] theorem layPayload_txRep (bs : List Byte) : (layPayload s bs).txRep = s.txRep := rfl
@[simp] theorem layPayload_txIdx (bs : List Byte) : (layPayload s bs).txIdx = s.txIdx := rfl
@[simp] theorem layPayload_txBit (bs : List Byte) : (layPayload s bs).txBit = s.txBit := rfl
@[simp] theorem layPayload_txHalf (bs : List Byte) : (layPayload s bs).txHalf = s.txHalf := rfl
@[simp] theorem layPayload_sleepCnt (bs : List Byte) : (layPayload s bs).sleepCnt = s.sleepCnt := rfl
@[simp] theorem layPayload_wakeFlag (bs : List Byte) : (layPayload s bs).wakeFlag = s.wakeFlag := rfl
@[simp] theorem layPayload_halted (bs : List Byte) : (layPayload s bs).halted = s.halted := rfl
@[simp] theorem layPayload_uv (bs : List Byte) : (layPayload s bs).uv = s.uv := rfl
@[simp] theorem layPayload_didWrite (bs : List Byte) : (layPayload s bs).didWrite = s.didWrite := rfl
@[simp] theorem layPayload_line (bs : List Byte) : (layPayload s bs).line = s.line := rfl
@[simp] theorem layPayload_plen (bs : List Byte) : (layPayload s bs).plen = 21#8 := rfl
@[simp] theorem layPayload_pbuf (bs : List Byte) : (layPayload s bs).pbuf = bs ++ s.pbuf.drop bs.length := rfl
@[simp] theorem layPayload_crcReg (bs : List Byte) : (layPayload s bs).crcReg = s.crcReg := rfl
@[simp] theorem layPayload_vrms (bs : List Byte) : (layPayload s bs).vrms = s.vrms := rfl
@[simp] theorem layPayload_irms (bs : List Byte) : (layPayload s bs).irms = s.irms := rfl
@[simp] theorem layPayload_vbat (bs : List Byte) : (layPayload s bs).vbat = s.vbat := rfl
@[simp] theorem layPayload_power (bs : List Byte) : (layPayload s bs).power = s.power := rfl
@[simp] theorem layPayload_acc (bs : List Byte) : (layPayload s bs).acc = s.acc := rfl
@[simp] theorem layPayload_wm (bs : List Byte) : (layPayload s bs).wm = s.wm := rfl
@[simp] theorem layPayload_lastTs (bs : List Byte) : (layPayload s bs).lastTs = s.lastTs := rfl
@[simp] theorem layPayload_nv (bs : List Byte) : (layPayload s bs).nv = s.nv := rfl
@[simp] theorem layPayload_nvInFlight (bs : List Byte) : (layPayload s bs).nvInFlight = s.nvInFlight := rfl
@[simp] theorem layPayload_trace (bs : List Byte) : (layPayload s bs).trace = s.trace := rfl
@[simp] theorem layPayload_agenda (bs : List Byte) : (layPayload s bs).agenda = s.agenda := rfl
@[simp] theorem layPayload_nvIn (bs : List Byte) : (layPayload s bs).nvIn = s.nvIn := rfl
@[simp] theorem layPayload_nowIn (bs : List Byte) : (layPayload s bs).nowIn = s.nowIn := rfl
@[simp] theorem layPayload_measIn (bs : List Byte) : (layPayload s bs).measIn = s.measIn := rfl
@[simp] theorem layPayload_draws (bs : List Byte) : (layPayload s bs).draws = s.draws := rfl

/-! ### powerOnReset -/

@[simp] theorem powerOnReset_cfg : (powerOnReset s).cfg = s.cfg := rfl
@[simp] theorem powerOnReset_seq : (powerOnReset s).seq = Seq.bLoad := rfl
@[simp] theorem powerOnReset_txRep : (powerOnReset s).txRep = 0#8 := rfl
@[simp] theorem powerOnReset_txIdx : (powerOnReset s).txIdx = 0#10 := rfl
@[simp] theorem powerOnReset_txBit : (powerOnReset s).txBit = 0#4 := rfl
@[simp] theorem powerOnReset_txHalf : (powerOnReset s).txHalf = false := rfl
@[simp] theorem powerOnReset_sleepCnt : (powerOnReset s).sleepCnt = 0#8 := rfl
@[simp] theorem powerOnReset_wakeFlag : (powerOnReset s).wakeFlag = false := rfl
@[simp] theorem powerOnReset_halted : (powerOnReset s).halted = false := rfl
@[simp] theorem powerOnReset_uv : (powerOnReset s).uv = false := rfl
@[simp] theorem powerOnReset_didWrite : (powerOnReset s).didWrite = false := rfl
@[simp] theorem powerOnReset_line : (powerOnReset s).line = false := rfl
@[simp] theorem powerOnReset_plen : (powerOnReset s).plen = 0#8 := rfl
@[simp] theorem powerOnReset_pbuf : (powerOnReset s).pbuf = List.replicate s.cfg.payloadMax 0#8 := rfl
@[simp] theorem powerOnReset_crcReg : (powerOnReset s).crcReg = 0#16 := rfl
@[simp] theorem powerOnReset_vrms : (powerOnReset s).vrms = 0#32 := rfl
@[simp] theorem powerOnReset_irms : (powerOnReset s).irms = 0#32 := rfl
@[simp] theorem powerOnReset_vbat : (powerOnReset s).vbat = 0#32 := rfl
@[simp] theorem powerOnReset_power : (powerOnReset s).power = 0#32 := rfl
@[simp] theorem powerOnReset_acc : (powerOnReset s).acc = 0#32 := rfl
@[simp] theorem powerOnReset_wm : (powerOnReset s).wm = 0#32 := rfl
@[simp] theorem powerOnReset_lastTs : (powerOnReset s).lastTs = 0#32 := rfl
@[simp] theorem powerOnReset_nv :
    (powerOnReset s).nv = if s.nvInFlight then writeBytes s.nv s.cfg.nvOffset (leBytes (Config.freeTorn s.draws)) else s.nv := rfl
@[simp] theorem powerOnReset_nvInFlight : (powerOnReset s).nvInFlight = false := rfl
@[simp] theorem powerOnReset_trace : (powerOnReset s).trace = s.trace := rfl
@[simp] theorem powerOnReset_agenda : (powerOnReset s).agenda = s.agenda := rfl
@[simp] theorem powerOnReset_nvIn : (powerOnReset s).nvIn = s.nvIn := rfl
@[simp] theorem powerOnReset_nowIn : (powerOnReset s).nowIn = s.nowIn := rfl
@[simp] theorem powerOnReset_measIn : (powerOnReset s).measIn = s.measIn := rfl
@[simp] theorem powerOnReset_draws : (powerOnReset s).draws = s.draws + 1 := rfl

/-! ### raise -/

@[simp] theorem raise_corruptPersisted : raise s .corruptPersisted = s := rfl
@[simp] theorem raise_undervoltage : raise s .undervoltage = emit s (.diag 2) := rfl
@[simp] theorem raise_txTiming : raise s .txTiming = s := rfl
@[simp] theorem raise_nonPositiveElapsed : raise s .nonPositiveElapsed = s := rfl

/-! ### driveAll -/

@[simp] theorem driveAll_nil : driveAll s [] = s := rfl
@[simp] theorem driveAll_cons (l : Bool) (ls : List Bool) :
    driveAll s (l :: ls) = driveAll (drive s l) ls := rfl

/-- Driving half-cells changes the line and the trace alone: the line is left at the last level. -/
theorem driveAll_eq (ls : List Bool) :
    driveAll s ls = { s with
      line := ls.getLastD s.line
      trace := s.trace ++ ls.map Event.half } := by
  induction ls generalizing s with
  | nil => simp
  | cons l ls ih =>
    rw [driveAll_cons, ih]
    cases ls <;> simp [drive, emit, List.getLast?_cons]

end Sys2Proof.Machine
end

