-- ==== Sys2Proof/Laws/Mem.lean ====
section
/-! SUPPORT. The laws of a byte-addressed space: read after write, and the canonical form, which every
memory operation keeps. -/

namespace Sys2Proof.Machine

@[simp] theorem readByte_nil (a : Nat) : readByte [] a = none := rfl

theorem readByte_writeByte_self (m : Mem) (a : Nat) (v : Byte) :
    readByte (writeByte m a v) a = some v := by
  induction m with
  | nil => simp [writeByte, readByte]
  | cons x m ih =>
    obtain ⟨b, w⟩ := x
    by_cases h1 : a < b
    · simp [writeByte, h1, readByte]
    · by_cases h2 : a = b
      · simp [writeByte, h2, readByte]
      · simp [writeByte, h1, h2, readByte, ih]

theorem readByte_writeByte_other (m : Mem) {a c : Nat} (v : Byte) (h : c ≠ a) :
    readByte (writeByte m a v) c = readByte m c := by
  induction m with
  | nil => simp [writeByte, readByte, h]
  | cons x m ih =>
    obtain ⟨b, w⟩ := x
    by_cases h1 : a < b
    · simp [writeByte, h1, readByte, h]
    · by_cases h2 : a = b
      · simp [writeByte, h2, readByte, h2 ▸ h]
      · simp [writeByte, h1, h2, readByte, ih]

/-- Reading after writing one byte: the byte written at its address, the old byte elsewhere. -/
@[simp] theorem readByte_writeByte (m : Mem) (a c : Nat) (v : Byte) :
    readByte (writeByte m a v) c = if c = a then some v else readByte m c := by
  by_cases h : c = a
  · simp [h, readByte_writeByte_self]
  · simp [h, readByte_writeByte_other m v h]

/-- Reading after writing consecutive bytes: the bytes written in their range, the old bytes
elsewhere. -/
theorem readByte_writeBytes (m : Mem) (a c : Nat) (bs : List Byte) :
    readByte (writeBytes m a bs) c =
      if a ≤ c ∧ c < a + bs.length then bs[c - a]? else readByte m c := by
  induction bs generalizing m a with
  | nil => simp [writeBytes]
  | cons b bs ih =>
    rw [writeBytes, ih, readByte_writeByte]
    by_cases h : c = a
    · subst h; simp
    · by_cases h' : a + 1 ≤ c ∧ c < a + 1 + bs.length
      · have h1 : a ≤ c ∧ c < a + (b :: bs).length := by simp only [List.length_cons]; omega
        have h2 : c - a = (c - (a + 1)) + 1 := by omega
        rw [if_pos h', if_pos h1, h2, List.getElem?_cons_succ]
      · have h1 : ¬ (a ≤ c ∧ c < a + (b :: bs).length) := by simp only [List.length_cons]; omega
        rw [if_neg h', if_neg h1, if_neg h]

/-! ### The canonical form -/

@[simp] theorem memWf_nil : memWf [] = true := rfl

theorem memWf_cons (b : Nat) (w : Byte) (m : Mem) :
    memWf ((b, w) :: m) = true ↔ memWf m = true ∧ ∀ x ∈ m.head?, b < x.1 := by
  cases m with
  | nil => simp [memWf]
  | cons y m => simp [memWf, and_comm]

theorem head?_writeByte (m : Mem) (a : Nat) (v : Byte) :
    ∀ x ∈ (writeByte m a v).head?, x.1 = a ∨ x ∈ m.head? := by
  cases m with
  | nil => simp [writeByte]
  | cons y m =>
    obtain ⟨b, w⟩ := y
    by_cases h1 : a < b
    · simp [writeByte, h1]
    · by_cases h2 : a = b <;> simp [writeByte, h1, h2]

/-- Writing a byte keeps the canonical form. -/
theorem memWf_writeByte (m : Mem) (a : Nat) (v : Byte) (h : memWf m = true) :
    memWf (writeByte m a v) = true := by
  induction m with
  | nil => rfl
  | cons y m ih =>
    obtain ⟨b, w⟩ := y
    have h0 := (memWf_cons b w m).mp h
    by_cases h1 : a < b
    · simp only [writeByte, h1, if_true]
      exact (memWf_cons a v _).mpr ⟨h, by simpa using h1⟩
    · by_cases h2 : a = b
      · subst h2
        simp only [writeByte, lt_irrefl, if_false, if_true]
        exact (memWf_cons a v m).mpr h0
      · simp only [writeByte, h1, h2, if_false]
        refine (memWf_cons b w _).mpr ⟨ih h0.1, fun x hx => ?_⟩
        rcases head?_writeByte m a v x hx with e | e
        · omega
        · exact h0.2 x e

/-- Writing consecutive bytes keeps the canonical form. -/
theorem memWf_writeBytes (m : Mem) (a : Nat) (bs : List Byte) (h : memWf m = true) :
    memWf (writeBytes m a bs) = true := by
  induction bs generalizing m a with
  | nil => exact h
  | cons b bs ih => exact ih _ _ (memWf_writeByte m a b h)

/-- The addresses a write lists: the one written and the ones listed before. -/
theorem mem_writeByte (m : Mem) (a : Nat) (v : Byte) (x : Host.Cell) (h : x ∈ writeByte m a v) :
    x.1 = a ∨ x ∈ m := by
  induction m with
  | nil => simp [writeByte] at h; simp [h]
  | cons y m ih =>
    obtain ⟨b, w⟩ := y
    by_cases h1 : a < b
    · simp only [writeByte, h1, if_true, List.mem_cons] at h
      rcases h with rfl | h
      · exact .inl rfl
      · exact .inr (List.mem_cons.mpr h)
    · by_cases h2 : a = b
      · simp only [writeByte, h2, lt_irrefl, if_false, if_true, List.mem_cons] at h
        rcases h with rfl | h
        · exact .inl h2.symm
        · exact .inr (List.mem_cons_of_mem _ h)
      · simp only [writeByte, h1, h2, if_false, List.mem_cons] at h
        rcases h with rfl | h
        · exact .inr (List.mem_cons_self ..)
        · exact (ih h).imp id (List.mem_cons_of_mem _)

/-- The store of the reset state is in the canonical form. -/
theorem reset_memWf : memWf State.reset.nv = true := rfl

/-! ### The payload buffer -/

/-- A byte of the buffer after laying down bytes: the byte laid down, the old byte past them. -/
theorem payloadByte_layPayload (s : State) (bs : List Byte) (i : Nat) :
    payloadByte (layPayload s bs) i = if i < bs.length then bs[i]? else payloadByte s i := by
  simp only [payloadByte, layPayload_pbuf, List.getElem?_append, List.getElem?_drop]
  split
  · rfl
  · rw [Nat.add_sub_cancel' (Nat.le_of_not_lt ‹_›)]

/-- Laying down bytes that fit keeps the buffer's length. -/
theorem length_layPayload (s : State) (bs : List Byte) (h : bs.length ≤ s.pbuf.length) :
    (layPayload s bs).pbuf.length = s.pbuf.length := by
  simp; omega

/-- The buffer after reset has `PAYLOAD_MAX` bytes (R33, R39). -/
@[simp] theorem length_resetWith_pbuf (c : Cfg) : (State.resetWith c).pbuf.length = c.payloadMax :=
  List.length_replicate ..

end Sys2Proof.Machine
end

