-- ==== Sys2Proof/Laws/Ops.lean ====
section
/-! SUPPORT. What each shared operation can do, said once. -/

namespace Sys2Proof.Machine

variable {s t : State} {k : State → Host.Outcome State Fault Refusal}

/-- Under a well-formed configuration the guard is transparent. -/
theorem configured_of_wf (h : s.cfg.wf = true) : configured s k = k s := by simp [configured, h]

/-- An ill-formed configuration is refused. -/
theorem configured_of_not_wf (h : s.cfg.wf = false) :
    configured s k = .refused .configIllFormed := by simp [configured, h]

/-- If a guarded meaning answers a next state, the configuration is well-formed and the meaning
itself answers it. -/
theorem next_of_configured (h : configured s k = .next t) : s.cfg.wf = true ∧ k s = .next t := by
  unfold configured at h
  split at h
  · exact ⟨‹_›, h⟩
  · cases h

/-- In a ready state the guard of a `MAIN` step is transparent. -/
theorem onMain_of_ready (h : Ready s) : onMain s k = k s := by
  simp [onMain, configured, h.1, h.2]

/-- A counter out of range faults. -/
theorem onMain_of_out_of_range (hw : s.cfg.wf = true) (h : countersInRange s = false) :
    onMain s k = .fault .counterRange := by
  simp [onMain, configured, hw, h]

/-- If a `MAIN` step answers a next state, the state is ready and the step's own rule answers it. -/
theorem next_of_onMain (h : onMain s k = .next t) : Ready s ∧ k s = .next t := by
  obtain ⟨hw, h⟩ := next_of_configured h
  split at h
  · exact ⟨⟨hw, ‹_›⟩, h⟩
  · cases h

/-- What `countersInRange` says. -/
theorem countersInRange_iff :
    countersInRange s = true ↔
      s.txBit.toNat < cells s.cfg ∧ s.txIdx.toNat < flen s ∧ s.txRep.toNat < s.cfg.copies
        ∧ s.sleepCnt.toNat ≤ s.cfg.sleepIntervals ∧ s.plen.toNat ≤ s.cfg.payloadMax := by
  simp [countersInRange, and_assoc]

/-- What a well-formed configuration guarantees (R9). -/
theorem wf_bounds {c : Cfg} (h : c.wf = true) :
    1 ≤ c.copies ∧ c.copies ≤ 255 ∧ 1 ≤ c.sleepIntervals ∧ c.sleepIntervals ≤ 255
      ∧ 21 ≤ c.payloadMax ∧ c.payloadMax ≤ 255 ∧ c.k ≤ 255 := by
  simp only [Cfg.wf, Bool.and_eq_true, decide_eq_true_eq] at h
  omega

/-! ### Draws -/

@[simp] theorem answered_nil {α : Type} : answered ([] : List (Option α)) = true := rfl
@[simp] theorem answered_some {α : Type} (a : α) (q : List (Option α)) :
    answered (some a :: q) = true := rfl
@[simp] theorem answered_none {α : Type} (q : List (Option α)) :
    answered (none :: q) = false := rfl
@[simp] theorem answerOr_nil {α : Type} (u : α) : answerOr u [] = u := rfl
@[simp] theorem answerOr_some {α : Type} (u a : α) (q : List (Option α)) :
    answerOr u (some a :: q) = a := rfl
@[simp] theorem skipUnanswered_none {α : Type} (q : List (Option α)) :
    skipUnanswered (none :: q) = q := rfl

/-- A script whose agent is ready is left alone. -/
theorem skipUnanswered_of_answered {α : Type} {q : List (Option α)} (h : answered q = true) :
    skipUnanswered q = q := by
  rcases q with _ | ⟨_ | a, q⟩
  · rfl
  · cases h
  · rfl

/-! ### What moves next -/

theorem nextMove_cons (m : Move) (q : List Move) (h : s.agenda = m :: q) : nextMove s = m := by
  simp [nextMove, h]

/-- With nothing scripted `MAIN` moves wherever it has an enabled step. -/
theorem nextMove_nil (h : s.agenda = []) (hm : s.seq ≠ Seq.sHalt ∨ s.wakeFlag = true) :
    nextMove s = .main := by
  rcases hm with hm | hm <;> simp [nextMove, h, hm]

/-- The code in `seq` always decodes (R121). -/
theorem decode_seqWord (c : Cfg) (s : State) : decode c .seq (seqWord s) = .ok (decodeSeq s.seq) := by
  have h : ∀ q : BitVec 4, ofBits 4 (toBits 4 q) = q := by decide
  have hl : (toBits 4 s.seq).length = 4 := rfl
  simp [decode, seqWord, h, hl]

/-- A step of `MAIN` runs the instruction that `seq` selects (R231). -/
theorem step_main (h : nextMove s = .main) : step s = exec (decodeSeq s.seq) (popAgenda s) := by
  simp only [step, h, runWord, decode_seqWord]

/-- A step of `ISR` is the interrupt's entry under a well-formed configuration (R291). -/
theorem step_expiry (h : nextMove s = .expiry) : step s = exec .isr (popAgenda s) := by
  simp [step, h, runWord, decode]

theorem step_powerOn (h : nextMove s = .powerOn) : step s = .next (powerOnReset (popAgenda s)) := by
  simp only [step, h]

theorem step_nvDone (h : nextMove s = .nvDone) : step s = .next (nvComplete (popAgenda s)) := by
  simp only [step, h]

end Sys2Proof.Machine
end

