-- ==== Sys2Proof/Laws/Bits.lean ====
section
/-! SUPPORT. Bits and words: lists of bits read back as the value they were written from. -/

namespace Sys2Proof

@[simp] theorem toBits_length (n : Nat) (v : BitVec n) : (toBits n v).length = n := by simp [toBits]

/-- The number that a list of bits spells, most significant first. -/
theorem foldl_bits (bs : List Bool) (a : Nat) :
    bs.foldl (fun a b => 2 * a + b.toNat) a =
      a * 2 ^ bs.length + bs.foldl (fun a b => 2 * a + b.toNat) 0 := by
  induction bs generalizing a with
  | nil => simp
  | cons b bs ih =>
    rw [List.foldl_cons, ih, List.foldl_cons, ih (2 * 0 + b.toNat)]
    simp only [List.length_cons, pow_succ]
    ring

theorem toBits_succ (n : Nat) (v : BitVec (n + 1)) :
    toBits (n + 1) v = v.getLsbD n :: toBits n (v.setWidth n) := by
  simp only [toBits, List.range_succ_eq_map, List.map_cons, List.map_map]
  congr 1
  apply List.map_congr_left
  intro i hi
  have : i < n := List.mem_range.mp hi
  simp only [Function.comp_apply, Nat.add_sub_cancel]
  rw [BitVec.getLsbD_setWidth]
  have h1 : n - 1 - i < n := by omega
  simp [h1, show n - (i + 1) = n - 1 - i by omega]

/-- Writing a value as bits and reading it back gives the value. -/
@[simp] theorem ofBits_toBits (n : Nat) (v : BitVec n) : ofBits n (toBits n v) = v := by
  have key : ∀ (n : Nat) (v : BitVec n),
      (toBits n v).foldl (fun a b => 2 * a + b.toNat) 0 = v.toNat := by
    intro n
    induction n with
    | zero => intro v; simp [toBits, BitVec.eq_nil v]
    | succ n ih =>
      intro v
      rw [toBits_succ, List.foldl_cons, foldl_bits, ih]
      simp only [toBits_length, Nat.mul_zero, Nat.zero_add, BitVec.toNat_setWidth]
      have hv := v.isLt
      have hb : v.getLsbD n = decide (2 ^ n ≤ v.toNat) := by
        have := BitVec.msb_eq_decide v
        rw [BitVec.msb_eq_getLsbD_last] at this
        simpa using this
      rw [hb]
      by_cases h : 2 ^ n ≤ v.toNat
      · have h2 : v.toNat % 2 ^ n = v.toNat - 2 ^ n := by
          rw [Nat.mod_eq_sub_mod h, Nat.mod_eq_of_lt]
          rw [pow_succ] at hv; omega
        simp [h, h2]
      · rw [Nat.mod_eq_of_lt (by omega)]; simp [h]
  rw [ofBits, key]
  exact BitVec.ofNat_toNat n v ▸ by simp

/-- Exchanging the four bytes of a 32-bit list twice gives the list back. -/
theorem swapBytes_swapBytes {bs : List Bool} (h : bs.length = 32) :
    swapBytes (swapBytes bs) = bs := by
  have e : bs = bs.take 8 ++ ((bs.drop 8).take 8 ++ ((bs.drop 16).take 8 ++ (bs.drop 24).take 8)) := by
    have h4 : (bs.drop 24).take 8 = bs.drop 24 := List.take_of_length_le (by simp [h])
    rw [h4]
    have h3 : (bs.drop 16).take 8 ++ bs.drop 24 = bs.drop 16 := by
      have := List.take_append_drop 8 (bs.drop 16); simpa using this
    rw [h3]
    have h2 : (bs.drop 8).take 8 ++ bs.drop 16 = bs.drop 8 := by
      have := List.take_append_drop 8 (bs.drop 8); simpa using this
    rw [h2, List.take_append_drop]
  have l1 : (bs.take 8).length = 8 := by simp [h]
  have l2 : ((bs.drop 8).take 8).length = 8 := by simp [h]
  have l3 : ((bs.drop 16).take 8).length = 8 := by simp [h]
  have l4 : ((bs.drop 24).take 8).length = 8 := by simp [h]
  unfold swapBytes
  generalize hA : bs.take 8 = A at *
  generalize hB : (bs.drop 8).take 8 = B at *
  generalize hC : (bs.drop 16).take 8 = C at *
  generalize hD : (bs.drop 24).take 8 = D at *
  rw [e]
  have d3 : C.drop 16 = [] := List.drop_of_length_le (by omega)
  have d4 : D.drop 16 = [] := List.drop_of_length_le (by omega)
  have d4' : D.drop 24 = [] := List.drop_of_length_le (by omega)
  have t1 : A.take 8 = A := List.take_of_length_le (by omega)
  simp [List.drop_append, l2, l3, l4, d3, d4, d4', t1]

@[simp] theorem swapBytes_length {bs : List Bool} (h : bs.length = 32) :
    (swapBytes bs).length = 32 := by
  simp [swapBytes, h]

/-- Bit cells read back as the bits they were written from. -/
@[simp] theorem cellBits_pairCells (bs : List Bool) : cellBits (pairCells bs) = some bs := by
  induction bs with
  | nil => rfl
  | cons b bs ih =>
    simp only [pairCells, List.flatMap_cons] at ih ⊢
    cases b <;> simp [cellBits, ih]

@[simp] theorem pairCells_length (bs : List Bool) : (pairCells bs).length = 2 * bs.length := by
  simp [pairCells, Nat.mul_comm]

end Sys2Proof
end

