-- ==== Sys2Proof/Laws/PerInstr.lean ====
section
/-! SUPPORT. Families of lemmas with one lemma per instruction. -/

namespace Sys2Proof.Laws

/-- Every encoding has the number of bits that its format has in the table. -/
def EncodingWidth.Statement (i : Instr) : Prop :=
  ∀ c : Cfg, (encode c i).2.length = (encode c i).1.width

theorem EncodingWidth.bLoad : EncodingWidth.Statement .bLoad := fun _ => rfl
theorem EncodingWidth.mMeas : EncodingWidth.Statement .mMeas := fun _ => rfl
theorem EncodingWidth.mInteg : EncodingWidth.Statement .mInteg := fun _ => rfl
theorem EncodingWidth.mGate : EncodingWidth.Statement .mGate := fun _ => rfl
theorem EncodingWidth.tBuild : EncodingWidth.Statement .tBuild := fun _ => rfl
theorem EncodingWidth.tCell : EncodingWidth.Statement .tCell := fun _ => rfl
theorem EncodingWidth.tEnd : EncodingWidth.Statement .tEnd := fun _ => rfl
theorem EncodingWidth.pCheck : EncodingWidth.Statement .pCheck := fun _ => rfl
theorem EncodingWidth.sArm : EncodingWidth.Statement .sArm := fun _ => rfl
theorem EncodingWidth.sHalt : EncodingWidth.Statement .sHalt := fun _ => rfl

theorem EncodingWidth.seqReservedAB (x : BitVec 1) :
    EncodingWidth.Statement (.seqReservedAB x) := fun _ => rfl

theorem EncodingWidth.seqReservedCF (x : BitVec 2) :
    EncodingWidth.Statement (.seqReservedCF x) := fun _ => rfl

theorem EncodingWidth.isr : EncodingWidth.Statement .isr := fun _ => rfl
theorem EncodingWidth.manch1 : EncodingWidth.Statement .manch1 := fun _ => rfl
theorem EncodingWidth.manch0 : EncodingWidth.Statement .manch0 := fun _ => rfl

theorem EncodingWidth.manchByteMsb (v : Byte) :
    EncodingWidth.Statement (.manchByteMsb v) := fun _ => rfl

theorem EncodingWidth.manchByteLsb (v : Byte) :
    EncodingWidth.Statement (.manchByteLsb v) := fun _ => rfl

theorem EncodingWidth.serByte (v : Byte) : EncodingWidth.Statement (.serByte v) := fun _ => rfl

theorem EncodingWidth.payloadBin (d : Byte) (v i p e b : BitVec 32) :
    EncodingWidth.Statement (.payloadBin d v i p e b) := fun _ => by
  simp [encode, Format.width, swapBytes_length]

theorem EncodingWidth.nvF32 (u : BitVec 32) : EncodingWidth.Statement (.nvF32 u) := fun _ => by
  simp [encode, Format.width, swapBytes_length]

theorem EncodingWidth.frameHead (a t l : Byte) :
    EncodingWidth.Statement (.frameHead a t l) := fun _ => rfl

theorem EncodingWidth.frameTail (crc : BitVec 16) (p : Byte) :
    EncodingWidth.Statement (.frameTail crc p) := fun _ => rfl

end Sys2Proof.Laws
end

