-- ==== Sys2Proof/Tests/Slice0.lean ====
section
/-! SUPPORT. Tests by evaluation. Expected values come from the vectors of 95_test_vectors.md, or are worked out by
hand from the rules. `test_witness_…` shows that the hypotheses of the statement of that name can be met. -/

namespace Sys2Proof.Machine

/-! ### Helpers -/

/-- `CFG_EX` in profile `BIT_SERIAL` with one copy (95_test_vectors.md §3.5). -/
def Cfg.serial : Cfg := { Cfg.example with profile := .bitSerial, copies := 1 }

/-- `CFG_EX` with the other bit order. -/
def Cfg.lsbFirst : Cfg := { Cfg.example with manchMsbFirst := false }

/-- The block after reset, with a sequencer code. -/
def State.at (q : BitVec 4) : State := { State.reset with seq := q }

/-- The payload 01 02 03 and its CRC in the registers, `T_CELL` to run (95_test_vectors.md §2.3). -/
def sendThree (c : Cfg) : State :=
  { State.resetWith c with
    seq := Seq.tCell, plen := 3#8, pbuf := [0x01#8, 0x02#8, 0x03#8] ++ List.replicate 29 0x00#8,
    crcReg := 0xADAD#16 }

/-- The registers of 95_test_vectors.md §3.1 after `M_GATE`. -/
def cycleOne : State :=
  { State.at Seq.tBuild with
    vrms := 0x43668E14#32, irms := 0x3F000000#32, vbat := 0x40400000#32, power := 0x42E68E14#32,
    acc := 0x42F9349F#32, wm := 0x42F6E666#32, lastTs := 37000#32 }

/-- The same, ready to send. -/
def sendPayload : State :=
  { cycleOne with
    seq := Seq.tCell, plen := 21#8, crcReg := 0xDDC0#16,
    pbuf :=
      [0x01#8, 0x0F#8, 0x5A#8, 0x00#8, 0x00#8, 0xF4#8, 0x01#8, 0x00#8, 0x00#8, 0x07#8, 0x2D#8, 0x00#8,
        0x00#8, 0xAC#8, 0x30#8, 0x00#8, 0x00#8, 0x2C#8, 0x01#8, 0x00#8, 0x00#8]
        ++ List.replicate 11 0x00#8 }

/-- Whether a step answers a next state with a property. -/
def goesTo (o : Host.Outcome State Fault Refusal) (p : State → Bool) : Bool :=
  match o with
  | .next t => p t
  | .fault _ => false
  | .refused _ => false

/-! ### Decoding: words written out from the table's encodings -/

theorem test_decode_seq_codes :
    decode Cfg.example .seq [false, false, false, false] = .ok .bLoad
    ∧ decode Cfg.example .seq [false, false, false, true] = .ok .mMeas
    ∧ decode Cfg.example .seq [false, false, true, false] = .ok .mInteg
    ∧ decode Cfg.example .seq [false, false, true, true] = .ok .mGate
    ∧ decode Cfg.example .seq [false, true, false, false] = .ok .tBuild
    ∧ decode Cfg.example .seq [false, true, false, true] = .ok .tCell
    ∧ decode Cfg.example .seq [false, true, true, false] = .ok .tEnd
    ∧ decode Cfg.example .seq [false, true, true, true] = .ok .pCheck
    ∧ decode Cfg.example .seq [true, false, false, false] = .ok .sArm
    ∧ decode Cfg.example .seq [true, false, false, true] = .ok .sHalt := by decide

theorem test_decode_seq_reserved :
    decode Cfg.example .seq [true, false, true, false] = .ok (.seqReservedAB 0#1)
    ∧ decode Cfg.example .seq [true, false, true, true] = .ok (.seqReservedAB 1#1)
    ∧ decode Cfg.example .seq [true, true, false, false] = .ok (.seqReservedCF 0#2)
    ∧ decode Cfg.example .seq [true, true, false, true] = .ok (.seqReservedCF 1#2)
    ∧ decode Cfg.example .seq [true, true, true, false] = .ok (.seqReservedCF 2#2)
    ∧ decode Cfg.example .seq [true, true, true, true] = .ok (.seqReservedCF 3#2)
    ∧ decode Cfg.example .seq [true, true, true] = .error .length := by decide

theorem test_decode_irq :
    decode Cfg.example .irq [true] = .ok .isr
    ∧ decode Cfg.example .irq [false] = .error .noExpiry
    ∧ decode Cfg.example .irq [] = .error .length := by decide

theorem test_decode_manch_cell :
    decode Cfg.example .manchCell [true, false] = .ok .manch1
    ∧ decode Cfg.example .manchCell [false, true] = .ok .manch0
    ∧ decode Cfg.example .manchCell [true, true] = .error .codeViolation
    ∧ decode Cfg.example .manchCell [false, false] = .error .codeViolation
    ∧ decode Cfg.serial .manchCell [true, false] = .error .notInProfile := by decide

/-- 95_test_vectors.md §2.2: 0x2D, both bit orders. -/
theorem test_decode_manch_byte :
    decode Cfg.example .manchByte
      [false, true, false, true, true, false, false, true, true, false, true, false, false, true, true, false]
      = .ok (.manchByteMsb 0x2D#8)
    ∧ decode Cfg.lsbFirst .manchByte
      [true, false, false, true, true, false, true, false, false, true, true, false, false, true, false, true]
      = .ok (.manchByteLsb 0x2D#8)
    ∧ decode Cfg.example .manchByte
      [false, false, false, true, true, false, false, true, true, false, true, false, false, true, true, false]
      = .error .codeViolation := by decide

/-- 95_test_vectors.md §2.2: 0xA5. -/
theorem test_decode_serial_byte :
    decode Cfg.serial .serialByte
      [true, true, false, true, false, false, true, false, true, false] = .ok (.serByte 0xA5#8)
    ∧ decode Cfg.serial .serialByte
      [false, true, false, true, false, false, true, false, true, false] = .error .startStop
    ∧ decode Cfg.serial .serialByte
      [true, true, false, true, false, false, true, false, true, true] = .error .startStop
    ∧ decode Cfg.example .serialByte
      [true, true, false, true, false, false, true, false, true, false] = .error .notInProfile := by decide

/-- 95_test_vectors.md §3.1: the payload bytes and the five fields. -/
theorem test_decode_payload :
    decode Cfg.example .payload ((sendPayload.pbuf.take 21).flatMap (toBits 8))
      = .ok (.payloadBin 0x01#8 0x00005A0F#32 0x000001F4#32 0x00002D07#32 0x000030AC#32 0x0000012C#32)
    ∧ decode { Cfg.example with deviceId := 2#8 } .payload ((sendPayload.pbuf.take 21).flatMap (toBits 8))
      = .error .foreignDevice := by decide +kernel

/-- R99: bytes 66 E6 F6 42 are the pattern 0x42F6E666. -/
theorem test_decode_nv :
    decode Cfg.example .nv
      ([false, true, true, false, false, true, true, false] ++ [true, true, true, false, false, true, true, false]
        ++ [true, true, true, true, false, true, true, false] ++ [false, true, false, false, false, false, true, false])
      = .ok (.nvF32 0x42F6E666#32) := by decide

/-- R90: 2D D4 15 before the payload of §3.1, and its refusals. -/
theorem test_decode_frame_head :
    decode Cfg.example .frameHead
      ([false, false, true, false, true, true, false, true] ++ [true, true, false, true, false, true, false, false]
        ++ [false, false, false, true, false, true, false, true]) = .ok (.frameHead 0x2D#8 0xD4#8 0x15#8)
    ∧ decode Cfg.example .frameHead (toBits 8 0x2D#8 ++ toBits 8 0xD4#8 ++ toBits 8 33#8) = .error .badLength
    ∧ decode Cfg.example .frameHead (toBits 8 0x2D#8 ++ toBits 8 0xD5#8 ++ toBits 8 21#8) = .error .noFrame := by
  decide

/-- R90, R91: DD C0 55 after it. -/
theorem test_decode_frame_tail :
    decode Cfg.example .frameTail
      ([true, true, false, true, true, true, false, true] ++ [true, true, false, false, false, false, false, false]
        ++ [false, true, false, true, false, true, false, true]) = .ok (.frameTail 0xDDC0#16 0x55#8)
    ∧ decode Cfg.example .frameTail (toBits 16 0xDDC0#16 ++ toBits 8 0x54#8) = .error .noStop := by decide

/-- The table's words of register `seq`. -/
theorem test_decodeTableWord :
    decodeTableWord 8 0x0 = some .bLoad ∧ decodeTableWord 8 0x5 = some .tCell
    ∧ decodeTableWord 8 0x9 = some .sHalt ∧ decodeTableWord 8 0xA = some (.seqReservedAB 0#1)
    ∧ decodeTableWord 8 0xC = some (.seqReservedCF 0#2) ∧ decodeTableWord 8 0x15 = none := by decide

/-- `withFetchWord` makes the very next step run the word, here on the state after reset. -/
theorem test_withFetchWord_runs :
    step (State.reset.withFetchWord 8 0x8) = exec .sArm (State.at Seq.sArm)
    ∧ step (State.reset.withFetchWord 8 0xA) = .fault .seqReserved := ⟨rfl, rfl⟩

/-! ### Well-formedness: each check refuses an ill-formed term -/

theorem test_cfg_example_wf : Cfg.example.wf = true ∧ Cfg.serial.wf = true := by decide

theorem test_cfg_wf_refuses :
    Cfg.wf { Cfg.example with copies := 0 } = false
    ∧ Cfg.wf { Cfg.example with copies := 256 } = false
    ∧ Cfg.wf { Cfg.example with sleepIntervals := 0 } = false
    ∧ Cfg.wf { Cfg.example with sleepIntervals := 256 } = false
    ∧ Cfg.wf { Cfg.example with payloadMax := 20 } = false
    ∧ Cfg.wf { Cfg.example with payloadMax := 256 } = false
    ∧ Cfg.wf { Cfg.example with k := 256 } = false
    ∧ Cfg.wf { Cfg.example with persistThreshold := 0x7F800000#32 } = false
    ∧ Cfg.wf { Cfg.example with persistThreshold := 0x00000000#32 } = false
    ∧ Cfg.wf { Cfg.example with vbatFloor := 0x7FC00000#32 } = false
    ∧ Cfg.wf { Cfg.example with elapsedFallback := 0x7F800000#32 } = false
    ∧ Cfg.wf { Cfg.example with elapsedFallback := 0x80000001#32 } = false
    ∧ Cfg.wf { Cfg.example with transport := .vendorDriver } = false
    ∧ Cfg.wf { Cfg.example with payloadFormat := .text } = false := by decide

theorem test_instr_wellFormed_refuses :
    Instr.manch1.wellFormed Cfg.serial = false ∧ Instr.manch0.wellFormed Cfg.serial = false
    ∧ (Instr.manchByteMsb 0#8).wellFormed Cfg.serial = false
    ∧ (Instr.manchByteMsb 0#8).wellFormed Cfg.lsbFirst = false
    ∧ (Instr.manchByteLsb 0#8).wellFormed { Cfg.serial with manchMsbFirst := false } = false
    ∧ (Instr.manchByteLsb 0#8).wellFormed Cfg.example = false
    ∧ (Instr.serByte 0#8).wellFormed Cfg.example = false
    ∧ (Instr.payloadBin 2#8 0#32 0#32 0#32 0#32 0#32).wellFormed Cfg.example = false
    ∧ (Instr.frameHead 0x2D#8 0xD4#8 21#8).wellFormed Cfg.serial = false
    ∧ (Instr.frameHead 0x2C#8 0xD4#8 21#8).wellFormed Cfg.example = false
    ∧ (Instr.frameHead 0x2D#8 0xD5#8 21#8).wellFormed Cfg.example = false
    ∧ (Instr.frameHead 0x2D#8 0xD4#8 33#8).wellFormed Cfg.example = false
    ∧ (Instr.frameTail 0#16 0x55#8).wellFormed Cfg.serial = false
    ∧ (Instr.frameTail 0#16 0x54#8).wellFormed Cfg.example = false := by decide

/-! ### Numbers and codec (95_test_vectors.md §2.1 to §2.5) -/

theorem test_crc16 :
    crc16 [] = 0xFFFF#16 ∧ crc16 [0x01#8] = 0xF1D1#16 ∧ crc16 [0x41#8] = 0xB915#16
    ∧ crc16 [0x31#8, 0x32#8, 0x33#8, 0x34#8, 0x35#8, 0x36#8, 0x37#8, 0x38#8, 0x39#8] = 0x29B1#16
    ∧ crc16 (sendPayload.pbuf.take 21) = 0xDDC0#16 := by decide +kernel

/-- The four rows of §2.4 nearest to the saturation bounds, a truncation of a negative product, a NaN. -/
theorem test_fix32 :
    fix32 0x43668E14#32 0x42C80000#32 = 0x00005A0F#32 ∧ fix32 0x4A03126E#32 0x447A0000#32 = 0x7FFFFF80#32
    ∧ fix32 0x4A031270#32 0x447A0000#32 = 0x7FFFFFFF#32 ∧ fix32 0xCBA3D70A#32 0x42C80000#32 = 0x80000000#32
    ∧ fix32 0xBF9E978D#32 0x42C80000#32 = 0xFFFFFF85#32 ∧ fix32 0x7FC00000#32 0x42C80000#32 = 0#32
    ∧ fix32 0x7F800000#32 0x42C80000#32 = 0x7FFFFFFF#32 := by decide

/-- §2.3: the frame of payload 01 02 03. -/
theorem test_frame :
    (List.range 11).map (frameByte (sendThree Cfg.example))
      = [some 0xAA#8, some 0xAA#8, some 0x2D#8, some 0xD4#8, some 0x03#8, some 0x01#8, some 0x02#8, some 0x03#8,
        some 0xAD#8, some 0xAD#8, some 0x55#8] := by decide

/-! ### One step each -/

/-- §2.5: 123.45 is accepted; an erased store is class 1. -/
theorem test_bLoad :
    goesTo (exec .bLoad { State.reset with nvIn := [some ⟨true, 0x66#8, 0xE6#8, 0xF6#8, 0x42#8⟩], nowIn := [some 1000#32] })
      (fun t => t.acc == 0x42F6E666#32 && t.wm == 0x42F6E666#32 && t.lastTs == 1000#32 && t.seq == 1#4
        && t.trace == [.nvRd 0 4]) = true
    ∧ goesTo (exec .bLoad { State.reset with nvIn := [some ⟨true, 0xFF#8, 0xFF#8, 0xFF#8, 0xFF#8⟩], nowIn := [some 500#32] })
      (fun t => t.acc == 0#32 && t.wm == 0#32 && t.trace == [.nvRd 0 4]) = true := by decide

/-- §3.1. -/
theorem test_mMeas :
    goesTo (exec .mMeas { State.at Seq.mMeas with measIn := [some ⟨0x43668E14#32, 0x3F000000#32, 0x40400000#32⟩] })
      (fun t => t.vrms == 0x43668E14#32 && t.irms == 0x3F000000#32 && t.vbat == 0x40400000#32 && t.seq == 2#4
        && t.trace == [.measReq]) = true := by decide

/-- §3.1: 36 s at 115.28 W. -/
theorem test_mInteg :
    goesTo (exec .mInteg
      { cycleOne with seq := Seq.mInteg, acc := 0x42F6E666#32, lastTs := 1000#32, nowIn := [some 37000#32] })
      (fun t => t.power == 0x42E68E14#32 && t.acc == 0x42F9349F#32 && t.lastTs == 37000#32 && t.seq == 3#4)
      = true := by decide

/-- §3.4: the clock has wrapped. -/
theorem test_mInteg_wrapped :
    goesTo (exec .mInteg
      { cycleOne with
        seq := Seq.mInteg, vrms := 0x43660000#32, irms := 0x3F800000#32, acc := 0x40A00000#32,
        lastTs := 4294960000#32, nowIn := [some 2704#32] })
      (fun t => t.power == 0x43660000#32 && t.acc == 0x40A00000#32 && t.lastTs == 2704#32) = true := by decide

/-- §1 item 6. -/
theorem test_mGate :
    goesTo (exec .mGate { State.at Seq.mGate with vbat := 0x3FF33333#32, sleepCnt := 2#8 })
      (fun t => t.uv && t.seq == 8#4 && t.sleepCnt == 0#8 && t.trace == [.diag 2]) = true
    ∧ goesTo (exec .mGate { State.at Seq.mGate with vbat := 0x40000000#32, uv := true })
      (fun t => !t.uv && t.seq == 4#4 && t.trace == []) = true := by decide

/-- §3.1. -/
theorem test_tBuild : goesTo (exec .tBuild cycleOne) (fun t => t == sendPayload) = true := by decide +kernel

/-- §2.2: the first cell of 0xAA is 1, 0. -/
theorem test_tCell :
    goesTo (exec .tCell (sendThree Cfg.example))
      (fun t => t.line && t.txHalf && t.txBit == 0#4 && t.trace == [.half true]) = true
    ∧ goesTo (exec .tCell { sendThree Cfg.example with txHalf := true, txBit := 7#4, txIdx := 10#10 })
      (fun t => !t.line && !t.txHalf && t.txBit == 0#4 && t.txIdx == 10#10 && t.seq == 6#4
        && t.trace == [.half false]) = true := by decide

/-- R184, `REPEAT` = 2. -/
theorem test_tEnd :
    goesTo (exec .tEnd { sendThree Cfg.example with seq := Seq.tEnd, txIdx := 10#10, line := true })
      (fun t => t.trace == [.idle, .guard] && t.txRep == 1#8 && t.txIdx == 0#10 && t.seq == 5#4 && !t.line) = true
    ∧ goesTo (exec .tEnd { sendThree Cfg.example with seq := Seq.tEnd, txIdx := 10#10, txRep := 1#8 })
      (fun t => t.trace == [.idle] && t.txRep == 0#8 && t.seq == 7#4) = true := by decide

/-- §2.5: 100.0 to 100.1 does not write, to 100.11 does. -/
theorem test_pCheck :
    goesTo (exec .pCheck { State.at Seq.pCheck with wm := 0x42C80000#32, acc := 0x42C83333#32, didWrite := true })
      (fun t => !t.didWrite && t.wm == 0x42C80000#32 && t.nv == [] && t.trace == [] && t.seq == 8#4) = true
    ∧ goesTo (exec .pCheck { State.at Seq.pCheck with wm := 0x42C80000#32, acc := 0x42C83852#32 })
      (fun t => t.didWrite && t.wm == 0x42C83852#32
        && t.nv == [(0, 0x52#8), (1, 0x38#8), (2, 0xC8#8), (3, 0x42#8)]
        && t.trace == [.nvWr 0 0x52#8 0x38#8 0xC8#8 0x42#8]) = true := by decide

/-- R229. -/
theorem test_sArm :
    goesTo (exec .sArm { State.at Seq.sArm with wakeFlag := true })
      (fun t => !t.wakeFlag && t.halted && t.seq == 9#4 && t.trace == [.armTimer, .halt]) = true := by decide

/-- R230, `SLEEP_INTERVALS` = 2. -/
theorem test_sHalt :
    goesTo (exec .sHalt { State.at Seq.sHalt with wakeFlag := true, halted := true })
      (fun t => t.wakeFlag && !t.halted && t.sleepCnt == 1#8 && t.seq == 8#4 && t.trace == [.wake]) = true
    ∧ goesTo (exec .sHalt { State.at Seq.sHalt with wakeFlag := true, halted := true, sleepCnt := 1#8 })
      (fun t => t.sleepCnt == 2#8 && t.seq == 1#4) = true := by decide

/-- R291. -/
theorem test_isr : goesTo (exec .isr State.reset) (fun t => t == { State.reset with wakeFlag := true }) = true := by
  decide

/-- §2.2: a 1, a 0, and 0xA5 in both codes. -/
theorem test_line_words :
    goesTo (exec .manch1 State.reset) (fun t => t.trace == [.half true, .half false] && !t.line) = true
    ∧ goesTo (exec .manch0 State.reset) (fun t => t.trace == [.half false, .half true] && t.line) = true
    ∧ goesTo (exec (.manchByteMsb 0x01#8) State.reset)
      (fun t => t.trace == [false, true, false, true, false, true, false, true, false, true, false, true, false, true,
        true, false].map Event.half) = true
    ∧ goesTo (exec (.manchByteLsb 0x01#8) State.reset)
      (fun t => t.trace == [true, false, false, true, false, true, false, true, false, true, false, true, false, true,
        false, true].map Event.half) = true
    ∧ goesTo (exec (.serByte 0x02#8) (State.resetWith Cfg.serial))
      (fun t => t.trace == [true, true, false, false, true, true, false, false, false, false, false, false, false,
        false, false, false, false, false, false, false].map Event.half) = true := by decide

/-- R93, R94, R99: the payload and the store of §3.1. -/
theorem test_record_words :
    goesTo (exec (.payloadBin 0x01#8 0x00005A0F#32 0x000001F4#32 0x00002D07#32 0x000030AC#32 0x0000012C#32) cycleOne)
      (fun t => t.pbuf == sendPayload.pbuf && t.plen == 21#8) = true
    ∧ goesTo (exec (.nvF32 0x42F9349F#32) cycleOne)
      (fun t => t.nv == [(0, 0x9F#8), (1, 0x34#8), (2, 0xF9#8), (3, 0x42#8)]
        && t.trace == [.nvWr 0 0x9F#8 0x34#8 0xF9#8 0x42#8]) = true := by decide

/-- §2.3: bytes 2 to 4 and 8 to 10 of the frame of 01 02 03 (the first and the last byte's cells). -/
theorem test_frame_words :
    goesTo (exec (.frameHead 0x2D#8 0xD4#8 0x03#8) State.reset)
      (fun t => t.trace.length == 48 && t.trace.drop 32 == [false, true, false, true, false, true, false, true, false,
        true, false, true, true, false, true, false].map Event.half) = true
    ∧ goesTo (exec (.frameTail 0xADAD#16 0x55#8) State.reset)
      (fun t => t.trace.length == 48 && t.trace.take 16 == [true, false, false, true, true, false, false, true, true,
        false, true, false, false, true, true, false].map Event.half) = true := by decide

/-- R122, R123. -/
theorem test_stops :
    step (State.at 0xB#4) = .fault .seqReserved ∧ step (State.at 0xF#4) = .fault .seqReserved
    ∧ step { State.at Seq.tCell with txBit := 8#4 } = .fault .counterRange
    ∧ exec .isr (State.resetWith { Cfg.example with k := 256 }) = .refused .configIllFormed := ⟨rfl, rfl, rfl, rfl⟩

/-- R63, R330: a reset ends the write in flight and leaves no line level, payload or flag. -/
theorem test_powerOn :
    goesTo (step { sendPayload with agenda := [.powerOn], line := true, wakeFlag := true })
      (fun t => t.seq == 0#4 && t.pbuf == List.replicate 32 0#8 && t.plen == 0#8 && !t.line && !t.wakeFlag && t.trace == []) = true := by
  decide

/-- R33: after reset every byte of the buffer holds a value, and no further one exists; the store is canonical. -/
theorem test_reset_memory :
    (∀ i < 32, (payloadByte State.reset i).isSome = true) ∧ payloadByte State.reset 32 = none
    ∧ memWf State.reset.nv = true := by decide

/-- A byte that no rule has written yet is sent, not stopped on: here the first payload byte after reset. -/
theorem test_tCell_unwritten_byte :
    goesTo (exec .tCell { State.at Seq.tCell with plen := 1#8, txIdx := 5#10 }) (fun t => t.txHalf) = true := by decide

/-! ### The hypotheses of the statements can be met -/

/-- `PayloadIsBuilt`, `ArmAndHaltStep`. -/
theorem test_witness_Ready :
    Ready State.reset ∧ Ready (sendThree Cfg.example) ∧ Ready (sendThree Cfg.serial) ∧ Ready sendPayload
    ∧ Ready cycleOne := by decide

/-- Scripted answers, and none. -/
theorem test_witness_BootLoadsValidatedAccumulator :
    (Ready State.reset ∧ answered State.reset.nvIn = true ∧ answered State.reset.nowIn = true)
    ∧ ∃ s : State, Ready s ∧ s.nvIn ≠ [] ∧ answered s.nvIn = true ∧ answered s.nowIn = true :=
  ⟨by decide, { State.reset with nvIn := [some ⟨true, 0x66#8, 0xE6#8, 0xF6#8, 0x42#8⟩], nowIn := [some 7#32] },
    by decide⟩

/-- All four bytes stored, and the last one missing. -/
theorem test_witness_BootReadsTheStoredBytes :
    (∃ s : State, Ready s ∧ s.nvIn = [] ∧ answered s.nowIn = true ∧ readByte s.nv s.cfg.nvOffset = some 0x66#8
      ∧ readByte s.nv (s.cfg.nvOffset + 1) = some 0xE6#8 ∧ readByte s.nv (s.cfg.nvOffset + 2) = some 0xF6#8
      ∧ readByte s.nv (s.cfg.nvOffset + 3) = some 0x42#8)
    ∧ ∃ s : State, Ready s ∧ s.nvIn = [] ∧ answered s.nowIn = true
      ∧ ∃ i, i < 4 ∧ readByte s.nv (s.cfg.nvOffset + i) = none :=
  ⟨⟨{ State.reset with nv := [(0, 0x66#8), (1, 0xE6#8), (2, 0xF6#8), (3, 0x42#8)] }, by decide⟩,
    { State.reset with nv := [(0, 0x66#8), (1, 0xE6#8), (2, 0xF6#8)] }, by decide, rfl, by decide, 3, by decide⟩

theorem test_witness_LoadedAccumulatorIsInRange :
    answered State.reset.nvIn = true ∧ answered State.reset.nowIn = true
    ∧ ∃ t, exec .bLoad State.reset = .next t := ⟨rfl, rfl, _, rfl⟩

theorem test_witness_MeasurementIsLatched :
    Ready (State.at Seq.mMeas) ∧ answered (State.at Seq.mMeas).measIn = true := by decide

theorem test_witness_IntegrationStep : Ready cycleOne ∧ answered cycleOne.nowIn = true := by decide

theorem test_witness_IntegrationKeepsAccumulatorFinite :
    isfinite cycleOne.acc = true ∧ ∃ t, exec .mInteg cycleOne = .next t := ⟨by decide, _, rfl⟩

/-- The clock stood still, and it wrapped (95_test_vectors.md §3.4). -/
theorem test_witness_WrappedClockAddsNothing :
    (let s := { State.at Seq.mInteg with lastTs := 16#32, nowIn := [some 16#32] };
      Ready s ∧ s.nowIn = some 16#32 :: [] ∧ (16#32 : Stamp).toNat ≤ s.lastTs.toNat
        ∧ s.cfg.elapsedFallback = 0x00000000#32 ∧ isfinite s.acc = true)
    ∧ (let s := { State.at Seq.mInteg with lastTs := 0xFFFFFFFF#32, nowIn := [some 0#32] };
      Ready s ∧ s.nowIn = some 0#32 :: [] ∧ (0#32 : Stamp).toNat ≤ s.lastTs.toNat
        ∧ s.cfg.elapsedFallback = 0x00000000#32 ∧ isfinite s.acc = true) := by decide

theorem test_witness_NonNegativeIncrementNeverDecreases :
    let s := { cycleOne with nowIn := [some 73000#32] }
    answered s.nowIn = true ∧ (∃ t, exec .mInteg s = .next t) ∧ isfinite s.acc = true
      ∧ fge (increment s (fmul s.vrms s.irms) (answerOr (Config.freeNow s.draws) s.nowIn)) 0x00000000#32 = true :=
  ⟨rfl, ⟨_, rfl⟩, by decide, by decide⟩

/-- Just below the floor, and at it. -/
theorem test_witness_UndervoltageGate :
    (∃ s : State, Ready s ∧ flt s.vbat s.cfg.vbatFloor = true)
    ∧ ∃ s : State, Ready s ∧ flt s.vbat s.cfg.vbatFloor = false :=
  ⟨⟨{ State.reset with vbat := 0x3FFFFFFF#32 }, by decide⟩, { State.reset with vbat := 0x40000000#32 }, by decide⟩

theorem test_witness_FloorAndNaNTransmit :
    (∃ s : State, Ready s ∧ s.vbat = s.cfg.vbatFloor) ∧ ∃ s : State, Ready s ∧ isnan s.vbat = true :=
  ⟨⟨{ State.reset with vbat := 0x40000000#32 }, by decide⟩, { State.reset with vbat := 0x7FC00000#32 }, by decide⟩

theorem test_witness_UnansweredDrawsChangeNothing :
    let s := { State.reset with nvIn := [none], nowIn := [none], measIn := [none] }
    Ready s ∧ answered s.nvIn = false ∧ answered s.nowIn = false ∧ answered s.measIn = false := by decide

/-- The first half-cell, the last of a byte, the last of the frame. -/
theorem test_witness_HalfCellStep :
    (Ready (sendThree Cfg.example) ∧ frameByte (sendThree Cfg.example) 0 = some 0xAA#8)
    ∧ (let s := { sendThree Cfg.example with txBit := 7#4, txHalf := true };
      Ready s ∧ s.txBit.toNat + 1 = cells s.cfg ∧ frameByte s s.txIdx.toNat = some 0xAA#8)
    ∧ (let s := { sendThree Cfg.example with txBit := 7#4, txHalf := true, txIdx := 10#10 };
      Ready s ∧ s.txIdx.toNat + 1 = flen s ∧ frameByte s s.txIdx.toNat = some 0x55#8) := by decide

/-- Each clause at a boundary, in both profiles: the first payload byte, with no buffer and with the buffer; the
last one; the index before and the index after the payload. -/
theorem test_witness_CellStopsOnlyOutsideTheBuffer :
    (let s := { sendThree Cfg.example with pbuf := [], txIdx := 5#10 };
      Ready s ∧ selectsPayload s 0 ∧ s.pbuf.length ≤ 0)
    ∧ (let s := { sendThree Cfg.serial with pbuf := [1#8, 2#8], txIdx := 2#10 };
      Ready s ∧ selectsPayload s 2 ∧ s.pbuf.length ≤ 2)
    ∧ (let s := { sendThree Cfg.example with txIdx := 5#10 };
      Ready s ∧ selectsPayload s 0 ∧ 0 < s.pbuf.length ∧ s.pbuf.length = s.cfg.payloadMax)
    ∧ (let s := { sendThree Cfg.serial with txIdx := 2#10 };
      Ready s ∧ selectsPayload s 2 ∧ 2 < s.pbuf.length)
    ∧ (let s := { sendThree Cfg.example with txIdx := 4#10 }; Ready s ∧ ∀ j < 3, s.txIdx.toNat ≠ s.cfg.k + 3 + j)
    ∧ (let s := { sendThree Cfg.serial with txIdx := 3#10 }; Ready s ∧ ∀ j < 3, s.txIdx.toNat ≠ j) := by
  decide +kernel

/-- A further copy, and the last copy. -/
theorem test_witness_CopyEndStep :
    (Ready (sendThree Cfg.example)
      ∧ (sendThree Cfg.example).txRep.toNat + 1 < (sendThree Cfg.example).cfg.copies)
    ∧ (let s := { sendThree Cfg.example with txRep := 1#8 };
      Ready s ∧ s.cfg.copies ≤ s.txRep.toNat + 1) := by decide

theorem test_witness_SelectedBytesAreTheFrame :
    (HoldsPayload (sendThree Cfg.example) [1#8, 2#8, 3#8] ∧ (sendThree Cfg.example).cfg.profile = .manchFramed
      ∧ flen (sendThree Cfg.example) ≤ 11)
    ∧ HoldsPayload (sendThree Cfg.serial) [1#8, 2#8, 3#8] ∧ (sendThree Cfg.serial).cfg.profile = .bitSerial := by
  decide

/-- A byte in the middle, and the last one. -/
theorem test_witness_StepsOfOneByteSendItsHalfCells :
    ∀ i ∈ [4#10, 10#10],
      let s := { sendThree Cfg.example with txIdx := i }
      Ready s ∧ s.agenda = [] ∧ s.seq = 0x5#4 ∧ s.txBit = 0#4 ∧ s.txHalf = false
        ∧ (frameByte s s.txIdx.toNat).isSome = true := by decide

theorem test_witness_StepsEmitTheTransmission :
    ∀ c ∈ [Cfg.example, Cfg.serial],
      let s := sendThree c
      Ready s ∧ PayloadInBuffer s ∧ s.agenda = [] ∧ s.seq = 0x5#4 ∧ s.txRep = 0#8 ∧ s.txIdx = 0#10 ∧ s.txBit = 0#4
        ∧ s.txHalf = false := by decide

/-- 101 steps of `MAIN` with two expiries among them. -/
theorem test_witness_TransmissionIgnoresExpiries :
    let s := { sendThree Cfg.serial with
      agenda := .expiry :: List.replicate 50 .main ++ .expiry :: List.replicate 51 .main }
    Ready s ∧ PayloadInBuffer s ∧ s.seq = 0x5#4 ∧ s.txRep = 0#8 ∧ s.txIdx = 0#10 ∧ s.txBit = 0#4 ∧ s.txHalf = false
      ∧ (∀ m ∈ s.agenda, m = .main ∨ m = .expiry) ∧ s.agenda.count .main = txSteps s.cfg (flen s) := by
  decide +kernel

theorem test_witness_TransmissionEventCounts :
    (sendThree Cfg.example).cfg.wf = true ∧ PayloadInBuffer (sendThree Cfg.example) := by decide

theorem test_witness_TransmissionDuration :
    sendPayload.cfg.wf = true ∧ PayloadInBuffer sendPayload ∧ sendPayload.plen = 21#8
    ∧ sendPayload.cfg.profile = .manchFramed := by decide

/-- A bit cell, and three half-cells in a row, exist from one byte on. -/
theorem test_witness_ManchesterIsBalancedAndSelfClocking :
    2 * 7 + 1 < ([0x2D#8].flatMap (manchByte true)).length
    ∧ 13 + 2 < ([0x2D#8].flatMap (manchByte true)).length := by decide

/-- The empty payload and the longest one. -/
theorem test_witness_ReferenceDecoderRecoversThePayload :
    Cfg.example.wf = true ∧ ([] : List Byte).length ≤ Cfg.example.payloadMax
    ∧ (List.replicate 32 0x41#8).length ≤ Cfg.example.payloadMax := by decide

/-- A burst over the last payload byte and the first byte of the CRC field. -/
theorem test_witness_CrcDetectsShortBursts :
    let p : List Byte := [1#8, 2#8, 3#8]
    p ++ [crcHigh (crc16 p), crcLow (crc16 p)] = [1#8, 2#8] ++ [3#8, 0xAD#8] ++ [0xAD#8]
      ∧ ((2#8, 0x2D#8) : Byte × Byte) ≠ (3#8, 0xAD#8) := by decide +kernel

theorem test_witness_FixedPointTruncatesAndSaturates :
    isnan 0x7F800001#32 = true ∧ isnan 0x7F800000#32 = false := by decide

/-- A tie: 1 + 2^-24 lies halfway; and the bound of overflow. -/
theorem test_witness_RoundingIsToNearestEven :
    roundMag (2 ^ 149 + 2 ^ 125) 1 < infMag ∧ 0x3F800001 < infMag
    ∧ ((unitsOf (roundMag (2 ^ 149 + 2 ^ 125) 1) : Int) - (2 ^ 149 + 2 ^ 125)).natAbs
      = ((unitsOf 0x3F800001 : Int) - (2 ^ 149 + 2 ^ 125)).natAbs
    ∧ roundMag ((2 ^ 25 - 1) * 2 ^ 252) 1 = infMag
    ∧ roundMag ((2 ^ 25 - 1) * 2 ^ 252 - 1) 1 < infMag := by decide +kernel

/-- A drift equal to the threshold, and one just below it. -/
theorem test_witness_ThresholdGatedPersist :
    (let s := { State.at Seq.pCheck with acc := 0x3DCCCCCD#32 };
      Ready s ∧ fge (fabs (fsub s.acc s.wm)) s.cfg.persistThreshold = true)
    ∧ (let s := { State.at Seq.pCheck with acc := 0x3DCCCCCC#32 };
      Ready s ∧ fge (fabs (fsub s.acc s.wm)) s.cfg.persistThreshold = false) := by decide

theorem test_witness_PersistedValueSurvivesReset :
    let s := { State.at Seq.pCheck with acc := 0x42C83852#32, agenda := [.main, .nvDone, .powerOn, .main] }
    Ready s ∧ s.seq = 0x7#4 ∧ s.agenda = [.main, .nvDone, .powerOn, .main] ∧ s.nvIn = []
      ∧ answered s.nowIn = true ∧ drifted s = true ∧ fge s.acc 0x00000000#32 = true
      ∧ fle s.acc 0x49742400#32 = true := by decide

theorem test_witness_StoreIsTouchedByPersistAlone :
    goesTo (step { State.at Seq.pCheck with acc := 0x42C83852#32 })
      (fun t => readByte t.nv 0 != readByte State.reset.nv 0) = true := by decide

theorem test_witness_WakeStep :
    (let s := { State.at Seq.sHalt with wakeFlag := true };
      Ready s ∧ s.wakeFlag = true)
    ∧ Ready (State.at Seq.sHalt) ∧ (State.at Seq.sHalt).wakeFlag = false := by decide

theorem test_witness_NoExpiryNoWake :
    let s := { State.at Seq.sHalt with agenda := List.replicate 2 .main }
    Ready s ∧ s.seq = 0x9#4 ∧ s.wakeFlag = false ∧ s.agenda = List.replicate 2 .main := by decide

/-- Two intervals, one with early and repeated expiries. -/
theorem test_witness_SleepTakesExactlyTheIntervals :
    let ab := [(0, 0), (1, 2)]
    let s := { State.at Seq.sArm with agenda := ab.flatMap intervalMoves }
    Ready s ∧ s.seq = 0x8#4 ∧ s.sleepCnt = 0#8 ∧ ab.length = s.cfg.sleepIntervals
      ∧ s.agenda = ab.flatMap intervalMoves := by decide

/-- A battery just below the floor. -/
theorem test_witness_UndervoltageCycle :
    let ab := [(0, 0), (1, 2)]
    let r : MeasResp := ⟨0x43650000#32, 0x3E800000#32, 0x3FFFFFFF#32⟩
    let s := { State.at Seq.mMeas with
      measIn := [some r], agenda := List.replicate 3 .main ++ ab.flatMap intervalMoves }
    Ready s ∧ s.seq = 0x1#4 ∧ s.measIn = some r :: [] ∧ flt r.vbat s.cfg.vbatFloor = true
      ∧ answered s.nowIn = true ∧ ab.length = s.cfg.sleepIntervals
      ∧ s.agenda = List.replicate 3 .main ++ ab.flatMap intervalMoves := by decide

/-- The block before a measurement, one transmission and two intervals to come. -/
def beforeCycle : State :=
  { State.at Seq.mMeas with
    measIn := [some ⟨0x43668E14#32, 0x3F000000#32, 0x40400000#32⟩]
    nowIn := [some 36000#32]
    agenda := List.replicate (5 + txSteps Cfg.example (flen21 Cfg.example)) .main
      ++ [(0, 0), (1, 2)].flatMap intervalMoves }

/-- `InvariantStatesNeverStop`: a state that meets the invariant outside a transmission. -/
theorem test_witness_Inv : Inv beforeCycle := by
  constructor
  case frameBuilt => exact fun h => absurd h (by decide)
  all_goals decide +kernel

/-- A state that meets the invariant inside one. -/
theorem test_witness_Inv_sending : Inv sendPayload := by
  constructor
  case frameBuilt => exact fun _ => ⟨sendPayload.pbuf.take 21, by decide +kernel⟩
  all_goals decide +kernel

theorem test_witness_NormalCycle :
    Inv beforeCycle ∧ beforeCycle.seq = 0x1#4
    ∧ beforeCycle.measIn = some ⟨0x43668E14#32, 0x3F000000#32, 0x40400000#32⟩ :: []
    ∧ flt 0x40400000#32 beforeCycle.cfg.vbatFloor = false ∧ answered beforeCycle.nowIn = true
    ∧ [(0, 0), (1, 2)].length = beforeCycle.cfg.sleepIntervals
    ∧ beforeCycle.agenda = List.replicate (5 + txSteps beforeCycle.cfg (flen21 beforeCycle.cfg)) .main
      ++ [(0, 0), (1, 2)].flatMap intervalMoves :=
  ⟨test_witness_Inv, rfl, rfl, by decide, rfl, rfl, rfl⟩

theorem test_witness_StepKeepsTheInvariant :
    (Inv beforeCycle ∧ ∃ t, step beforeCycle = .next t) ∧ Inv sendPayload ∧ ∃ t, step sendPayload = .next t :=
  ⟨⟨test_witness_Inv, _, rfl⟩, test_witness_Inv_sending, _, rfl⟩

/-- `InterruptSetsTheFlagAlone`, `LineWordsDriveTheLine`, `FrameWordsDriveTheLine`, `PayloadWordIsLaidDown`,
`PersistedWordIsStored`, `ResetMeetsTheInvariant`. -/
theorem test_witness_cfg_wf : State.reset.cfg.wf = true := by decide

/-- `ExpiryCommutesWithMain`. -/
theorem test_witness_ExpiryCommutesWithMain :
    Instr.tEnd ∈ [Instr.bLoad, .mMeas, .mInteg, .mGate, .tBuild, .tCell, .tEnd, .pCheck] := by decide

theorem test_witness_ReservedCodesFault :
    ∀ q ∈ [0xA#4, 0xF#4], nextMove (State.at q) = .main ∧ 10 ≤ (State.at q).seq.toNat := by decide

/-- Each counter at the first value out of its range. -/
theorem test_witness_CounterOutOfRangeFaults :
    State.reset.cfg.wf = true
    ∧ (let s := { State.reset with txBit := 8#4 }; cells s.cfg ≤ s.txBit.toNat)
    ∧ (let s := { State.reset with txIdx := 8#10 }; flen s ≤ s.txIdx.toNat)
    ∧ (let s := { State.reset with txRep := 2#8 }; s.cfg.copies ≤ s.txRep.toNat)
    ∧ (let s := { State.reset with sleepCnt := 3#8 }; s.cfg.sleepIntervals < s.sleepCnt.toNat)
    ∧ (let s := { State.reset with plen := 33#8 }; s.cfg.payloadMax < s.plen.toNat) := by decide

/-- Each way of being ill-formed, by its smallest change to `CFG_EX`. -/
theorem test_witness_IllFormedConfigurationIsRefused :
    { Cfg.example with copies := 0 }.copies = 0 ∧ { Cfg.example with sleepIntervals := 0 }.sleepIntervals = 0
    ∧ { Cfg.example with payloadMax := 20 }.payloadMax < 21 ∧ 255 < { Cfg.example with payloadMax := 256 }.payloadMax
    ∧ 255 < { Cfg.example with k := 256 }.k
    ∧ isfinite { Cfg.example with persistThreshold := 0x7F800000#32 }.persistThreshold = false
    ∧ flt 0x00000000#32 { Cfg.example with persistThreshold := 0x00000000#32 }.persistThreshold = false
    ∧ isfinite { Cfg.example with vbatFloor := 0x7F800000#32 }.vbatFloor = false
    ∧ isfinite { Cfg.example with elapsedFallback := 0x7F800000#32 }.elapsedFallback = false
    ∧ fge { Cfg.example with elapsedFallback := 0x80000001#32 }.elapsedFallback 0x00000000#32 = false
    ∧ { Cfg.example with transport := .vendorDriver }.transport = .vendorDriver
    ∧ { Cfg.example with payloadFormat := .text }.payloadFormat = .text := by decide

/-- A well-formed word of every row with operands or a profile. -/
theorem test_witness_DecodeOfEncode :
    (Instr.seqReservedCF 3#2).wellFormed Cfg.example = true ∧ Instr.manch1.wellFormed Cfg.example = true
    ∧ (Instr.manchByteMsb 0xFF#8).wellFormed Cfg.example = true
    ∧ (Instr.manchByteLsb 0xFF#8).wellFormed Cfg.lsbFirst = true
    ∧ (Instr.serByte 0xFF#8).wellFormed Cfg.serial = true
    ∧ (Instr.payloadBin 1#8 1#32 2#32 3#32 4#32 5#32).wellFormed Cfg.example = true
    ∧ (Instr.frameHead 0x2D#8 0xD4#8 32#8).wellFormed Cfg.example = true
    ∧ (Instr.frameTail 0xDDC0#16 0x55#8).wellFormed Cfg.example = true := by decide

theorem test_witness_EncodeOfDecode :
    decode Cfg.example .seq [true, false, false, true] = .ok .sHalt
    ∧ decode Cfg.serial .serialByte [true, true, false, true, false, false, true, false, true, false]
      = .ok (.serByte 0xA5#8) := by decide

theorem test_witness_StepRunsTheDecodedInstruction :
    (nextMove (State.at Seq.tBuild) = .main
      ∧ decode (State.at Seq.tBuild).cfg .seq (toBits 4 (State.at Seq.tBuild).seq) = .ok .tBuild)
    ∧ nextMove { State.reset with agenda := [.expiry] } = .expiry := by decide

/-- A step of each agent, and one from each sequencer code but `S_HALT` halted. -/
theorem test_witness_SequencerTransitions :
    (∀ q ∈ [0x3#4, 0x4#4, 0x6#4, 0x7#4, 0x8#4],
      nextMove (State.at q) = .main ∧ goesTo (step (State.at q)) (fun _ => true) = true)
    ∧ (∃ t, step (State.at 0x0#4) = .next t) ∧ (∃ t, step (State.at 0x1#4) = .next t)
    ∧ (∃ t, step (State.at 0x2#4) = .next t)
    ∧ goesTo (step (State.at 0x5#4)) (fun _ => true) = true
    ∧ goesTo (step { State.at 0x9#4 with agenda := [.main] }) (fun _ => true) = true
    ∧ ∀ m ∈ [Move.expiry, .powerOn, .nvDone],
      nextMove { State.reset with agenda := [m] } = m
        ∧ goesTo (step { State.reset with agenda := [m] }) (fun _ => true) = true :=
  ⟨by decide, ⟨_, rfl⟩, ⟨_, rfl⟩, ⟨_, rfl⟩, by decide, by decide, by decide⟩

/-- Steps that do change a register named there. -/
theorem test_witness_RegistersHaveTheirWritersOnly :
    goesTo (step (State.at Seq.tBuild)) (fun t => t.plen != State.reset.plen && t.crcReg != State.reset.crcReg) = true
    ∧ goesTo (step { State.at Seq.sArm with wakeFlag := true }) (fun t => !t.wakeFlag) = true := by decide +kernel

theorem test_witness_PowerOnReset :
    nextMove { sendPayload with agenda := [.powerOn] } = .powerOn ∧ sendPayload.nvInFlight = false := by decide

theorem test_witness_TraceOnlyGrows :
    goesTo (step (sendThree Cfg.example)) (fun t => t.trace == [.half true]) = true
    ∧ goesTo (step { State.at Seq.mGate with vbat := 0x3FF33333#32 }) (fun t => t.trace == [.diag 2]) = true := by
  decide

end Sys2Proof.Machine
end

section
/-! The codes of `seq`: which code each step leaves there (44_scheduler.md), and that the reserved codes of
30_encoding.md R122 fault and are led to by no step. -/

namespace Sys2Proof.Machine

variable {i : Instr} {q : BitVec 4} {s t : State}

/-! ### What the shared operations do to `seq` -/

@[simp] theorem driveAll_seq (s : State) (ls : List Bool) : (driveAll s ls).seq = s.seq := by
  rw [driveAll_eq]

/-- The serializer leaves `T_CELL` for `T_END` alone (R182). -/
theorem advance_seq (s : State) : (advance s).seq = s.seq ∨ (advance s).seq = Seq.tEnd := by
  unfold advance
  split
  · exact .inl rfl
  · split
    · exact .inl rfl
    · split
      · exact .inl rfl
      · exact .inr rfl

/-! ### What each step does to `seq` -/

theorem seq_of_execBLoad (h : execBLoad s = .next t) : t.seq = s.seq ∨ t.seq = Seq.mMeas := by
  obtain ⟨-, h⟩ := next_of_onMain h
  split at h <;> cases h
  · exact .inr rfl
  · exact .inl rfl

theorem seq_of_execMMeas (h : execMMeas s = .next t) : t.seq = s.seq ∨ t.seq = Seq.mInteg := by
  obtain ⟨-, h⟩ := next_of_onMain h
  split at h <;> cases h
  · exact .inr rfl
  · exact .inl rfl

theorem seq_of_execMInteg (h : execMInteg s = .next t) : t.seq = s.seq ∨ t.seq = Seq.mGate := by
  obtain ⟨-, h⟩ := next_of_onMain h
  split at h <;> cases h
  · exact .inr rfl
  · exact .inl rfl

theorem seq_of_execMGate (h : execMGate s = .next t) : t.seq = Seq.sArm ∨ t.seq = Seq.tBuild := by
  obtain ⟨-, h⟩ := next_of_onMain h
  split at h <;> cases h
  · exact .inl rfl
  · exact .inr rfl

theorem seq_of_execTBuild (h : execTBuild s = .next t) : t.seq = Seq.tCell := by
  obtain ⟨-, h⟩ := next_of_onMain h
  cases h
  rfl

theorem seq_of_execTCell (h : execTCell s = .next t) : t.seq = s.seq ∨ t.seq = Seq.tEnd := by
  obtain ⟨-, h⟩ := next_of_onMain h
  split at h <;> cases h
  exact advance_seq (drive s _)

theorem seq_of_execTEnd (h : execTEnd s = .next t) : t.seq = Seq.tCell ∨ t.seq = Seq.pCheck := by
  obtain ⟨-, h⟩ := next_of_onMain h
  split at h <;> cases h
  · exact .inl rfl
  · exact .inr rfl

theorem seq_of_execPCheck (h : execPCheck s = .next t) : t.seq = Seq.sArm := by
  obtain ⟨-, h⟩ := next_of_onMain h
  cases h
  rfl

theorem seq_of_execSArm (h : execSArm s = .next t) : t.seq = Seq.sHalt := by
  obtain ⟨-, h⟩ := next_of_onMain h
  cases h
  rfl

theorem seq_of_execSHalt (h : execSHalt s = .next t) :
    t.seq = s.seq ∨ t.seq = Seq.sArm ∨ t.seq = Seq.mMeas := by
  obtain ⟨-, h⟩ := next_of_onMain h
  split at h <;> cases h
  · exact .inr (ite_eq_or_eq ..)
  · exact .inl rfl

/-- A meaning that is one state operation under the configuration's guard leaves `seq` as the operation does. -/
theorem seq_of_configured {f : State → State} (hf : ∀ s, (f s).seq = s.seq)
    (h : configured s (fun s => .next (f s)) = .next t) : t.seq = s.seq := by
  obtain ⟨-, h⟩ := next_of_configured h
  cases h
  exact hf s

theorem seq_of_configured_driveAll (ls : State → List Bool)
    (h : configured s (fun s => .next (driveAll s (ls s))) = .next t) : t.seq = s.seq :=
  seq_of_configured (fun s => driveAll_seq s (ls s)) h

/-! ### The reserved codes (R122) -/

theorem exec_seqReservedAB (x : BitVec 1) (s : State) :
    exec (.seqReservedAB x) s = .fault .seqReserved := rfl

theorem exec_seqReservedCF (x : BitVec 2) (s : State) :
    exec (.seqReservedCF x) s = .fault .seqReserved := rfl

/-- From 0xA on a code is one of the two reserved rows. -/
theorem decodeSeq_of_ten_le (h : 10 ≤ q.toNat) :
    decodeSeq q = .seqReservedAB 0#1 ∨ decodeSeq q = .seqReservedAB 1#1
      ∨ decodeSeq q = .seqReservedCF (q.extractLsb' 0 2) := by
  revert q
  decide

theorem exec_decodeSeq_of_ten_le (h : 10 ≤ q.toNat) (s : State) :
    exec (decodeSeq q) s = .fault .seqReserved := by
  obtain hq | hq | hq := decodeSeq_of_ten_le h
  · rw [hq, exec_seqReservedAB]
  · rw [hq, exec_seqReservedAB]
  · rw [hq, exec_seqReservedCF]

theorem step_of_reserved (hm : nextMove s = .main) (h : 10 ≤ s.seq.toNat) :
    step s = .fault .seqReserved := by
  rw [step_main hm, exec_decodeSeq_of_ten_le h]

/-! ### The flow between the codes -/

/-- The codes in which an instruction may leave a sequencer that stood at `q`: the flow graph of R221 to R230,
R182 and R184. Where `q` itself is listed the step may wait, or has no effect on `seq`. -/
def seqAfter (q : BitVec 4) : Instr → List (BitVec 4)
  | .bLoad => [q, Seq.mMeas]
  | .mMeas => [q, Seq.mInteg]
  | .mInteg => [q, Seq.mGate]
  | .mGate => [Seq.sArm, Seq.tBuild]
  | .tBuild => [Seq.tCell]
  | .tCell => [q, Seq.tEnd]
  | .tEnd => [Seq.tCell, Seq.pCheck]
  | .pCheck => [Seq.sArm]
  | .sArm => [Seq.sHalt]
  | .sHalt => [q, Seq.sArm, Seq.mMeas]
  | .seqReservedAB _ | .seqReservedCF _ => []
  | .isr | .manch1 | .manch0 | .manchByteMsb _ | .manchByteLsb _ | .serByte _
  | .payloadBin .. | .nvF32 _ | .frameHead .. | .frameTail .. => [q]

/-- The flow graph is the model's: a meaning that answers a next state leaves `seq` at a code listed for it. -/
theorem exec_seq_mem (h : exec i s = .next t) : t.seq ∈ seqAfter s.seq i := by
  cases i with
  | bLoad => simpa [seqAfter] using seq_of_execBLoad h
  | mMeas => simpa [seqAfter] using seq_of_execMMeas h
  | mInteg => simpa [seqAfter] using seq_of_execMInteg h
  | mGate => simpa [seqAfter] using seq_of_execMGate h
  | tBuild => simpa [seqAfter] using seq_of_execTBuild h
  | tCell => simpa [seqAfter] using seq_of_execTCell h
  | tEnd => simpa [seqAfter] using seq_of_execTEnd h
  | pCheck => simpa [seqAfter] using seq_of_execPCheck h
  | sArm => simpa [seqAfter] using seq_of_execSArm h
  | sHalt => simpa [seqAfter] using seq_of_execSHalt h
  | seqReservedAB x => cases h
  | seqReservedCF x => cases h
  | isr => exact List.mem_singleton.mpr (seq_of_configured takeExpiry_seq h)
  | payloadBin => exact List.mem_singleton.mpr (seq_of_configured (layPayload_seq · _) h)
  | nvF32 => exact List.mem_singleton.mpr (seq_of_configured (nvWrite_seq · _) h)
  | manch1 => exact List.mem_singleton.mpr (seq_of_configured_driveAll (fun _ => manchBit true) h)
  | manch0 => exact List.mem_singleton.mpr (seq_of_configured_driveAll (fun _ => manchBit false) h)
  | manchByteMsb v =>
    exact List.mem_singleton.mpr (seq_of_configured_driveAll (fun _ => manchByte true v) h)
  | manchByteLsb v =>
    exact List.mem_singleton.mpr (seq_of_configured_driveAll (fun _ => manchByte false v) h)
  | serByte v =>
    exact List.mem_singleton.mpr
      (seq_of_configured_driveAll (fun s => serialByte s.cfg.serStartLevel v) h)
  | frameHead a b l =>
    exact List.mem_singleton.mpr
      (seq_of_configured_driveAll (fun s => frameHalfcells s.cfg [a, b, l]) h)
  | frameTail crc p =>
    exact List.mem_singleton.mpr
      (seq_of_configured_driveAll (fun s => frameHalfcells s.cfg [crcHigh crc, crcLow crc, p]) h)

/-- No edge of the flow graph ends in a reserved code. -/
theorem seqAfter_legal (hq : q.toNat ≤ 9) : ∀ r ∈ seqAfter q i, r.toNat ≤ 9 := by
  cases i <;> simp [seqAfter, hq]

theorem exec_keeps_seq_legal (hs : s.seq.toNat ≤ 9) (h : exec i s = .next t) : t.seq.toNat ≤ 9 :=
  seqAfter_legal hs _ (exec_seq_mem h)

theorem step_keeps_seq_legal (hs : s.seq.toNat ≤ 9) (h : step s = .next t) : t.seq.toNat ≤ 9 := by
  have hp : (popAgenda s).seq.toNat ≤ 9 := hs
  cases hm : nextMove s with
  | main => exact exec_keeps_seq_legal hp (step_main hm ▸ h)
  | expiry => exact exec_keeps_seq_legal hp (step_expiry hm ▸ h)
  | powerOn =>
    rw [step_powerOn hm] at h
    cases h
    simp
  | nvDone =>
    rw [step_nvDone hm] at h
    cases h
    simpa using hs

/-- Settles O41: the reserved rows fault by their meaning, and legality of `seq` is kept because the flow graph
`seqAfter` has no edge to a reserved code. -/
theorem reservedCodesFault : Obligations.ReservedCodesFault :=
  ⟨exec_seqReservedAB, exec_seqReservedCF, fun _ => step_of_reserved, by decide,
    fun _ _ => step_keeps_seq_legal⟩

end Sys2Proof.Machine
end

section
/-! The steps of the transmitter (42_transmitter.md R182, R184): how the serializer position moves, and what
`T_CELL` and `T_END` answer in a ready state. -/

namespace Sys2Proof.Machine

variable {s : State} {v : Byte}

/-! ### The serializer position (R182), one equation per case -/

theorem advance_of_firstHalf (hh : s.txHalf = false) : advance s = { s with txHalf := true } :=
  if_pos hh

theorem advance_within_byte (hh : s.txHalf = true) (hb : s.txBit.toNat + 1 < cells s.cfg) :
    advance s = { s with txHalf := false, txBit := s.txBit + 1#4 } := by
  have hb : s.txBit.toNat < cells s.cfg - 1 := by omega
  simp [advance, hh, hb]

theorem advance_to_next_byte (hh : s.txHalf = true) (hb : s.txBit.toNat + 1 = cells s.cfg)
    (hi : s.txIdx.toNat + 1 < flen s) :
    advance s = { s with txHalf := false, txBit := 0#4, txIdx := s.txIdx + 1#10 } := by
  have hb : ¬ s.txBit.toNat < cells s.cfg - 1 := by omega
  have hi : s.txIdx.toNat < flen s - 1 := by omega
  simp only [advance, hh, hb, hi, Bool.true_eq_false, if_false, if_true]

theorem advance_off_last_byte (hh : s.txHalf = true) (hb : s.txBit.toNat + 1 = cells s.cfg)
    (hi : s.txIdx.toNat + 1 = flen s) :
    advance s = { s with txHalf := false, txBit := 0#4, seq := Seq.tEnd } := by
  have hb : ¬ s.txBit.toNat < cells s.cfg - 1 := by omega
  have hi : ¬ s.txIdx.toNat < flen s - 1 := by omega
  simp only [advance, hh, hb, hi, Bool.true_eq_false, if_false]

/-- The four cases as one record: in range, "not below the last" is "the last". -/
theorem advance_eq (hbit : s.txBit.toNat < cells s.cfg) (hidx : s.txIdx.toNat < flen s) :
    let lastBit : Prop := s.txBit.toNat + 1 = cells s.cfg
    let lastByte : Prop := s.txIdx.toNat + 1 = flen s
    advance s = { s with
      txHalf := !s.txHalf
      txBit := if s.txHalf = true then (if lastBit then 0#4 else s.txBit + 1#4) else s.txBit
      txIdx := if s.txHalf = true ∧ lastBit ∧ ¬ lastByte then s.txIdx + 1#10 else s.txIdx
      seq := if s.txHalf = true ∧ lastBit ∧ lastByte then Seq.tEnd else s.seq } := by
  intro lastBit lastByte
  cases hh : s.txHalf with
  | false => simp [advance_of_firstHalf hh]
  | true =>
    by_cases hb : lastBit
    · by_cases hi : lastByte
      · simp [advance_off_last_byte hh hb hi, hb, hi]
      · simp [advance_to_next_byte hh hb (Nat.lt_of_le_of_ne hidx hi), hb, hi]
    · simp [advance_within_byte hh (Nat.lt_of_le_of_ne hbit hb), hb]

/-! ### `T_CELL` (R182) -/

/-- Where the current frame byte has a value, `T_CELL` drives the line and moves the position on. -/
theorem exec_tCell_of_frameByte (hr : Ready s) (hv : frameByte s s.txIdx.toNat = some v) :
    exec .tCell s = .next (advance (drive s (cellLevel s.cfg v s.txBit.toNat s.txHalf))) := by
  change execTCell s = _
  simp only [execTCell, onMain_of_ready hr, hv]

/-- Settles O14: the position's closed form, at the state whose line has been driven; driving changes neither the
position nor what bounds it. -/
theorem halfCellStep : Obligations.HalfCellStep := by
  intro s v hr hv
  obtain ⟨hbit, hidx, -⟩ := countersInRange_iff.mp hr.2
  rw [exec_tCell_of_frameByte hr hv, advance_eq (s := drive s _) hbit hidx]
  rfl

/-! ### `T_END` (R184) -/

theorem exec_tEnd_further_copy (hr : Ready s) (hc : s.txRep.toNat + 1 < s.cfg.copies) :
    exec .tEnd s = .next { s with
      line := false
      trace := s.trace ++ [.idle, .guard]
      txIdx := 0#10
      txBit := 0#4
      txHalf := false
      txRep := s.txRep + 1#8
      seq := Seq.tCell } := by
  change execTEnd s = _
  simp [execTEnd, onMain_of_ready hr, hc, emit]

theorem exec_tEnd_last_copy (hr : Ready s) (hc : s.cfg.copies ≤ s.txRep.toNat + 1) :
    exec .tEnd s = .next { s with
      line := false
      trace := s.trace ++ [.idle]
      txIdx := 0#10
      txBit := 0#4
      txHalf := false
      txRep := 0#8
      seq := Seq.pCheck } := by
  change execTEnd s = _
  simp [execTEnd, onMain_of_ready hr, hc.not_gt, emit]

/-- Settles O16: the two outcomes of the test `tx_rep + 1 < REPEAT`. -/
theorem copyEndStep : Obligations.CopyEndStep :=
  fun _ hr => ⟨exec_tEnd_further_copy hr, exec_tEnd_last_copy hr⟩

end Sys2Proof.Machine
end

section
/-! The store write (20_memory.md R63, 30_encoding.md R99) and `P_CHECK` (43_energy_store.md R203, 44_scheduler.md
R228): what the store holds after a write, what the `NvWr` event carries, and the two outcomes of the threshold
test. -/

namespace Sys2Proof.Machine

variable {s : State}

/-! ### The bytes of a persisted word (R65) -/

theorem byteOf_eq_setWidth_shift (u : BitVec 32) (i : Nat) :
    byteOf u i = (u >>> (8 * i)).setWidth 8 := by
  ext j hj
  simp [byteOf]

theorem getElem?_leBytes (u : BitVec 32) {i : Nat} (h : i < 4) :
    (leBytes u)[i]? = some (byteOf u i) := by
  match i, h with
  | 0, _ | 1, _ | 2, _ | 3, _ => rfl

/-! ### `NvWrite` (R63) -/

theorem readByte_nvWrite (s : State) (u : BitVec 32) (a : Nat) :
    readByte (nvWrite s u).nv a =
      if s.cfg.nvOffset ≤ a ∧ a < s.cfg.nvOffset + 4 then
        some ((u >>> (8 * (a - s.cfg.nvOffset))).setWidth 8)
      else readByte s.nv a := by
  have hlen : (leBytes u).length = 4 := rfl
  rw [nvWrite_nv, readByte_writeBytes, hlen]
  split
  case isTrue ha =>
    have hi : a - s.cfg.nvOffset < 4 := by omega
    rw [getElem?_leBytes u hi, byteOf_eq_setWidth_shift]
  case isFalse => rfl

/-- Outside the store a write shows in the `NvWr` event and in the mark that it is not completed. -/
theorem nvWrite_frame (s : State) (u : BitVec 32) :
    { nvWrite s u with nv := s.nv } = { s with
      nvInFlight := true
      trace := s.trace ++ [.nvWr s.cfg.nvOffset (u.setWidth 8) ((u >>> 8).setWidth 8)
        ((u >>> 16).setWidth 8) ((u >>> 24).setWidth 8)] } := by
  simp [nvWrite, emit, byteOf_eq_setWidth_shift]

/-! ### `P_CHECK` (R203, R228) -/

theorem maybePersist_of_drifted (h : drifted s = true) :
    maybePersist s = { nvWrite s s.acc with wm := s.acc, didWrite := true } :=
  if_pos h

theorem maybePersist_of_not_drifted (h : drifted s = false) :
    maybePersist s = { s with didWrite := false } := by
  simp [maybePersist, h]

theorem exec_pCheck_of_ready (hr : Ready s) :
    exec .pCheck s = .next { maybePersist s with sleepCnt := 0#8, seq := Seq.sArm } := by
  change execPCheck s = _
  rw [execPCheck, onMain_of_ready hr]

theorem exec_pCheck_of_drifted (hr : Ready s) (h : drifted s = true) :
    exec .pCheck s = .next { nvWrite s s.acc with
      wm := s.acc, didWrite := true, sleepCnt := 0#8, seq := Seq.sArm } := by
  rw [exec_pCheck_of_ready hr, maybePersist_of_drifted h]

theorem exec_pCheck_of_not_drifted (hr : Ready s) (h : drifted s = false) :
    exec .pCheck s = .next { s with didWrite := false, sleepCnt := 0#8, seq := Seq.sArm } := by
  rw [exec_pCheck_of_ready hr, maybePersist_of_not_drifted h]

/-- Settles O30: the two outcomes of the threshold test `drifted`; past it, the store is read through
`readByte_nvWrite` and everything else through `nvWrite_frame`. -/
theorem thresholdGatedPersist : Obligations.ThresholdGatedPersist := by
  intro s hr
  constructor
  · intro h
    refine ⟨_, exec_pCheck_of_drifted hr h, readByte_nvWrite s s.acc, ?_⟩
    exact congrArg (fun t : State => { t with
      nvInFlight := s.nvInFlight, wm := s.acc, didWrite := true, sleepCnt := 0#8, seq := Seq.sArm })
      (nvWrite_frame s s.acc)
  · exact exec_pCheck_of_not_drifted hr

end Sys2Proof.Machine
end

section
/-! The scheduler's steps between a measurement and the halt (44_scheduler.md): `T_BUILD` with the layout of the
payload (R225, R262), the undervoltage gate `M_GATE` (R224), and `S_ARM` (R229). -/

namespace Sys2Proof.Machine

variable {s : State}

/-! ### The layout of the payload (R93, R94, R262) -/

/-- Words laid down one after another, four bytes each: byte `i` of word `f` is at `4 * f + i`. -/
theorem getElem?_flatMap_leBytes (ws : List (BitVec 32)) {f i : Nat} (hf : f < ws.length) (hi : i < 4) :
    (ws.flatMap leBytes)[4 * f + i]? = some (byteOf (ws.getD f 0#32) i) := by
  induction ws generalizing f with
  | nil => cases hf
  | cons w ws ih =>
    have hlen : (leBytes w).length = 4 := rfl
    rw [List.flatMap_cons]
    cases f with
    | zero =>
      rw [List.getElem?_append_left (by omega), Nat.mul_zero, Nat.zero_add, getElem?_leBytes w hi]
      rfl
    | succ f =>
      rw [List.getElem?_append_right (by omega), show 4 * (f + 1) + i - (leBytes w).length = 4 * f + i by omega,
        ih (Nat.lt_of_succ_lt_succ hf), List.getD_cons_succ]

@[simp] theorem length_payloadBytes (d : Byte) (v i p e b : BitVec 32) :
    (payloadBytes d v i p e b).length = 21 := rfl

theorem payloadBytes_eq_flatMap (d : Byte) (v i p e b : BitVec 32) :
    payloadBytes d v i p e b = d :: [v, i, p, e, b].flatMap leBytes := rfl

theorem payloadBytes_zero (d : Byte) (v i p e b : BitVec 32) :
    (payloadBytes d v i p e b)[0]? = some d := rfl

theorem payloadBytes_field (d : Byte) (v i p e b : BitVec 32) {f j : Nat} (hf : f < 5) (hj : j < 4) :
    (payloadBytes d v i p e b)[1 + 4 * f + j]?
      = some (([v, i, p, e, b].getD f 0#32 >>> (8 * j)).setWidth 8) := by
  rw [payloadBytes_eq_flatMap, show 1 + 4 * f + j = 4 * f + j + 1 by omega, List.getElem?_cons_succ,
    getElem?_flatMap_leBytes _ hf hj, byteOf_eq_setWidth_shift]

/-! ### Laying the payload down -/

theorem payloadByte_layPayload_of_lt (s : State) {bs : List Byte} {i : Nat} (h : i < bs.length) :
    payloadByte (layPayload s bs) i = bs[i]? := by
  rw [payloadByte_layPayload, if_pos h]

theorem payloadByte_layPayload_of_le (s : State) {bs : List Byte} {i : Nat} (h : bs.length ≤ i) :
    payloadByte (layPayload s bs) i = payloadByte s i := by
  rw [payloadByte_layPayload, if_neg (Nat.not_lt.mpr h)]

theorem take_layPayload_pbuf (s : State) (bs : List Byte) :
    (layPayload s bs).pbuf.take bs.length = bs := by
  rw [layPayload_pbuf, List.take_left]

/-! ### `T_BUILD` (R225, R262) -/

theorem length_builtPayload (s : State) : (builtPayload s).length = 21 := length_payloadBytes ..

theorem exec_tBuild_of_ready (hr : Ready s) :
    exec .tBuild s = .next { layPayload s (builtPayload s) with
      crcReg := crc16 (builtPayload s)
      txRep := 0#8
      txIdx := 0#10
      txBit := 0#4
      txHalf := false
      seq := Seq.tCell } := by
  change execTBuild s = _
  rw [execTBuild, onMain_of_ready hr]

/-- Settles O13: inside the 21 bytes the buffer reads as `payloadBytes` does, past them as before, and the CRC is
that of the bytes which now stand first in the buffer. -/
theorem payloadIsBuilt : Obligations.PayloadIsBuilt := by
  intro s hr w
  have hlen := length_builtPayload s
  refine ⟨_, exec_tBuild_of_ready hr, ?device, ?fields, ?rest, ?crc, rfl⟩
  case device =>
    exact (payloadByte_layPayload_of_lt s (by omega)).trans (payloadBytes_zero ..)
  case fields =>
    intro f i hf hi
    exact (payloadByte_layPayload_of_lt s (by omega)).trans (payloadBytes_field _ _ _ _ _ _ hf hi)
  case rest =>
    intro a ha
    exact payloadByte_layPayload_of_le s (hlen.trans_le ha)
  case crc =>
    exact congrArg crc16 (take_layPayload_pbuf s (builtPayload s)).symm

/-! ### `M_GATE` (R224) -/

theorem exec_mGate_of_undervolted (hr : Ready s) (h : undervolted s = true) :
    exec .mGate s = .next { s with
      uv := true, trace := s.trace ++ [.diag 2], sleepCnt := 0#8, seq := Seq.sArm } := by
  change execMGate s = _
  rw [execMGate, onMain_of_ready hr, if_pos h, raise_undervoltage, emit]

theorem exec_mGate_of_not_undervolted (hr : Ready s) (h : undervolted s = false) :
    exec .mGate s = .next { s with uv := false, seq := Seq.tBuild } := by
  change execMGate s = _
  rw [execMGate, onMain_of_ready hr, if_neg (Bool.eq_false_iff.mp h)]

/-- Settles O10: the two outcomes of the undervoltage test. -/
theorem undervoltageGate : Obligations.UndervoltageGate :=
  fun _ hr => ⟨exec_mGate_of_undervolted hr, exec_mGate_of_not_undervolted hr⟩

/-! ### `S_ARM` (R229) -/

theorem exec_sArm_of_ready (hr : Ready s) :
    exec .sArm s = .next { s with
      wakeFlag := false
      trace := s.trace ++ [.armTimer, .halt]
      halted := true
      seq := Seq.sHalt } := by
  change execSArm s = _
  simp [execSArm, onMain_of_ready hr, emit]

/-- Settles O33: clear, arm and halt are one meaning, so one equation says it all. -/
theorem armAndHaltStep : Obligations.ArmAndHaltStep := fun _ => exec_sArm_of_ready

end Sys2Proof.Machine
end

section
/-! The numbers of the payload (00_scope.md R10, 45_payload.md R260): the order of the patterns is the order of
the values they stand for, a product by a finite non-zero scale is no NaN, and `fix32` saturates and truncates
the value of that product. -/

namespace Sys2Proof.Machine

variable {a b p x scale : F32} {m n : Nat} {neg : Bool}

/-! ### Magnitudes and their units -/

theorem unitsOf_of_lt (h : m < 2 ^ 23) : unitsOf m = m := if_pos h

theorem unitsOf_of_le (h : 2 ^ 23 ≤ m) :
    unitsOf m = (2 ^ 23 + m % 2 ^ 23) * 2 ^ (m / 2 ^ 23 - 1) :=
  if_neg (Nat.not_lt.mpr h)

/-- From one magnitude to the next the units grow: by one below the first normal, by the weight of a unit
in the last place within a binade, and from the top of one binade to the foot of the next. -/
theorem unitsOf_lt_succ (m : Nat) : unitsOf m < unitsOf (m + 1) := by
  rcases Nat.lt_or_ge m (2 ^ 23) with hm | hm
  · rcases Nat.lt_or_ge (m + 1) (2 ^ 23) with hs | hs
    · rw [unitsOf_of_lt hm, unitsOf_of_lt hs]
      exact Nat.lt_succ_self m
    · obtain rfl : m = 2 ^ 23 - 1 := by omega
      decide
  · rw [unitsOf_of_le hm, unitsOf_of_le (Nat.le_succ_of_le hm)]
    by_cases hq : (m + 1) / 2 ^ 23 = m / 2 ^ 23
    · rw [hq]
      exact Nat.mul_lt_mul_of_pos_right (by omega) (Nat.two_pow_pos _)
    · have hfoot : (m + 1) % 2 ^ 23 = 0 := by omega
      have hexp : (m + 1) / 2 ^ 23 - 1 = (m / 2 ^ 23 - 1) + 1 := by omega
      rw [hfoot, hexp, pow_succ' 2 (m / 2 ^ 23 - 1), ← Nat.mul_assoc]
      exact Nat.mul_lt_mul_of_pos_right (by omega) (Nat.two_pow_pos _)

theorem strictMono_unitsOf : StrictMono unitsOf := strictMono_nat_of_lt_succ unitsOf_lt_succ

theorem unitsOf_le_unitsOf_iff : unitsOf m ≤ unitsOf n ↔ m ≤ n := strictMono_unitsOf.le_iff_le

theorem unitsOf_eq_zero_iff : unitsOf m = 0 ↔ m = 0 :=
  strictMono_unitsOf.injective.eq_iff' rfl

/-! ### The comparisons are those of the values -/

/-- Key and value are the magnitude and its units under the same sign, and the units keep the order of the
magnitudes and their zero. -/
theorem key_le_key_iff : key a ≤ key b ↔ value a ≤ value b := by
  have hab := unitsOf_le_unitsOf_iff (m := mag a) (n := mag b)
  have hba := unitsOf_le_unitsOf_iff (m := mag b) (n := mag a)
  have ha := unitsOf_eq_zero_iff (m := mag a)
  have hb := unitsOf_eq_zero_iff (m := mag b)
  unfold key value
  split <;> split <;> omega

theorem fge_iff_value_le (ha : isnan a = false) (hb : isnan b = false) :
    fge a b = true ↔ value b ≤ value a := by
  simp [fge, ha, hb, key_le_key_iff]

theorem fle_iff_value_le (ha : isnan a = false) (hb : isnan b = false) :
    fle a b = true ↔ value a ≤ value b := by
  simp [fle, ha, hb, key_le_key_iff]

/-! ### When a product is a NaN (R10) -/

theorem mag_pack (h : m < 2 ^ 31) : mag (pack neg m) = m := by
  cases neg <;> simp [mag, pack] <;> omega

theorem isnan_pack_of_le (h : m ≤ infMag) : isnan (pack neg m) = false := by
  have hm : m < 2 ^ 31 := lt_of_le_of_lt h (by decide)
  simp [isnan, mag_pack hm, h]

theorem roundMag_le_infMag (num den : Nat) : roundMag num den ≤ infMag := Nat.min_le_right _ _

/-- The one product of two numbers that is a NaN is that of an infinity and a zero. -/
theorem isnan_fmul_of_finite_ne_zero (ha : isnan a = false) (hb : isfinite b = true) (hz : mag b ≠ 0) :
    isnan (fmul a b) = false := by
  have hlt : mag b < infMag := of_decide_eq_true hb
  have hbn : isnan b = false := decide_eq_false (Nat.lt_asymm hlt)
  have hbi : isinf b = false := decide_eq_false (Nat.ne_of_lt hlt)
  cases hai : isinf a with
  | true =>
    have hm : mag a = infMag := of_decide_eq_true hai
    simp [fmul, ha, hbn, hai, hm, hz, isnan_pack_of_le]
  | false =>
    simp [fmul, ha, hbn, hai, hbi, isnan_pack_of_le, roundMag_le_infMag]

/-! ### Truncation and saturation (R260) -/

/-- Division that rounds toward zero discards the fraction of the magnitude and keeps the sign. -/
theorem tdiv_value (p : F32) : (value p).tdiv (2 ^ 149) =
    if sign p then -((unitsOf (mag p) / 2 ^ 149 : Nat) : Int) else (unitsOf (mag p) / 2 ^ 149 : Nat) := by
  rw [value]
  split
  · rw [Int.neg_tdiv]
    rfl
  · rfl

theorem truncI32_eq_ofInt (p : F32) : truncI32 p = BitVec.ofInt 32 ((value p).tdiv (2 ^ 149)) := by
  rw [tdiv_value, truncI32]
  split
  · rw [BitVec.ofInt_neg, BitVec.ofInt_natCast]
  · rw [BitVec.ofInt_natCast]

theorem le_tdiv_value_iff : 2 ^ 31 ≤ (value p).tdiv (2 ^ 149) ↔ 2 ^ 180 ≤ value p := by
  rw [tdiv_value, value]
  split <;> omega

theorem tdiv_value_le_iff : (value p).tdiv (2 ^ 149) ≤ -2 ^ 31 ↔ value p ≤ -2 ^ 180 := by
  rw [tdiv_value, value]
  split <;> omega

theorem value_two_pow_31 : value 0x4F000000#32 = 2 ^ 180 := by decide

theorem value_neg_two_pow_31 : value 0xCF000000#32 = -2 ^ 180 := by decide

theorem fix32_of_isnan (h : isnan x = true) : fix32 x scale = 0#32 := if_pos h

theorem fix32_of_not_isnan (hx : isnan x = false) (hp : isnan (fmul x scale) = false) :
    fix32 x scale = BitVec.ofInt 32
      (max (-2 ^ 31) (min (2 ^ 31 - 1) ((value (fmul x scale)).tdiv (2 ^ 149)))) := by
  have hge : fge (fmul x scale) 0x4F000000#32 = true ↔ 2 ^ 31 ≤ (value (fmul x scale)).tdiv (2 ^ 149) := by
    rw [fge_iff_value_le hp (by decide), value_two_pow_31, le_tdiv_value_iff]
  have hle : fle (fmul x scale) 0xCF000000#32 = true ↔ (value (fmul x scale)).tdiv (2 ^ 149) ≤ -2 ^ 31 := by
    rw [fle_iff_value_le hp (by decide), value_neg_two_pow_31, tdiv_value_le_iff]
  simp only [fix32, hx, Bool.false_eq_true, if_false, hge, hle, truncI32_eq_ofInt]
  generalize (value (fmul x scale)).tdiv (2 ^ 149) = q
  split
  next habove =>
    rw [min_eq_left (by omega), max_eq_right (by omega)]
    rfl
  next hnotAbove =>
    rw [min_eq_right (by omega)]
    split
    next hbelow => rw [max_eq_left hbelow]; rfl
    next hnotBelow => rw [max_eq_right (by omega)]

/-- Settles O28: the two scales are finite and no zero, so the product with a number is a number; its
saturated truncation is `fix32_of_not_isnan`. -/
theorem fixedPointTruncatesAndSaturates : Obligations.FixedPointTruncatesAndSaturates := by
  intro x scale hscale
  have hfinite : isfinite scale = true ∧ mag scale ≠ 0 := by
    rcases hscale with rfl | rfl <;> decide
  obtain ⟨hfin, hnz⟩ := hfinite
  exact ⟨fix32_of_isnan, fun hx => fix32_of_not_isnan hx (isnan_fmul_of_finite_ne_zero hx hfin hnz)⟩

end Sys2Proof.Machine
end

section
/-! The interrupt (60_exceptions.md R291, R297): under a well-formed configuration `ISR` is `takeExpiry`, the one
assignment to the wake flag. -/

namespace Sys2Proof.Machine

variable {s : State}

/-! ### `ISR` (R291) -/

theorem exec_isr_of_wf (h : s.cfg.wf = true) : exec .isr s = .next (takeExpiry s) := by
  change execIsr s = _
  rw [execIsr, configured_of_wf h]

/-- Settles O39: behind the configuration's guard stands `takeExpiry` alone, and that is the assignment. -/
theorem interruptSetsTheFlagAlone : Obligations.InterruptSetsTheFlagAlone := by
  intro s h
  rw [exec_isr_of_wf h, takeExpiry]

end Sys2Proof.Machine
end

section
/-! Decoding and encoding (30_encoding.md): reading bits and writing them back, the Manchester cells, the exchange
of a word's bytes, and from these the two directions for every row. -/

namespace Sys2Proof

variable {bs : List Bool} {c : Cfg} {i : Instr}

/-! ### Bits read and written back -/

theorem foldl_bits_lt (bs : List Bool) : bs.foldl (fun a b => 2 * a + b.toNat) 0 < 2 ^ bs.length := by
  induction bs with
  | nil => exact Nat.one_pos
  | cons b bs ih =>
    rw [List.foldl_cons, foldl_bits, List.length_cons, pow_succ]
    cases b <;> simp <;> omega

theorem toNat_ofBits (bs : List Bool) :
    (ofBits bs.length bs).toNat = bs.foldl (fun a b => 2 * a + b.toNat) 0 :=
  (BitVec.toNat_ofNat ..).trans (Nat.mod_eq_of_lt (foldl_bits_lt bs))

theorem toNat_ofBits_cons (b : Bool) (bs : List Bool) :
    (ofBits (bs.length + 1) (b :: bs)).toNat = b.toNat * 2 ^ bs.length + (ofBits bs.length bs).toNat := by
  rw [← List.length_cons (a := b), toNat_ofBits, toNat_ofBits, List.foldl_cons, foldl_bits, Nat.mul_zero,
    Nat.zero_add]

/-- Reading bits as a value and writing the value gives the bits. -/
theorem toBits_ofBits {n : Nat} (h : bs.length = n) : toBits n (ofBits n bs) = bs := by
  induction bs generalizing n with
  | nil =>
    subst h
    rfl
  | cons b bs ih =>
    subst h
    have hval := toNat_ofBits_cons b bs
    have hlt : (ofBits bs.length bs).toNat < 2 ^ bs.length := (ofBits bs.length bs).isLt
    have hhead : (ofBits (bs.length + 1) (b :: bs)).getLsbD bs.length = b := by
      rw [BitVec.getLsbD, Nat.testBit_eq_decide_div_mod_eq, hval, Nat.add_comm,
        Nat.add_mul_div_right _ _ (Nat.two_pow_pos _), Nat.div_eq_of_lt hlt]
      cases b <;> rfl
    have htail : (ofBits (bs.length + 1) (b :: bs)).setWidth bs.length = ofBits bs.length bs := by
      apply BitVec.eq_of_toNat_eq
      rw [BitVec.toNat_setWidth, hval, Nat.add_comm, Nat.add_mul_mod_self_right, Nat.mod_eq_of_lt hlt]
    rw [List.length_cons, toBits_succ, hhead, htail, ih rfl]

/-- The only bits in which every cell of a Manchester word can have been sent are the ones it reads as (R95). -/
theorem eq_pairCells_of_cellBits {ds : List Bool} (h : cellBits bs = some ds) : bs = pairCells ds := by
  induction bs using cellBits.induct generalizing ds with
  | case1 =>
    cases h
    rfl
  | case2 => cases h
  | case3 a rest => simp [cellBits] at h
  | case4 a b rest hab ih =>
    rw [cellBits, if_neg hab, Option.map_eq_some_iff] at h
    obtain ⟨es, hes, rfl⟩ := h
    have hb : b = !a := by cases a <;> cases b <;> simp_all
    rw [ih hes, hb]
    rfl

/-! ### Decoding, one rule per format -/

theorem decode_seq_of_length (h : bs.length = 4) : decode c .seq bs = .ok (decodeSeq (ofBits 4 bs)) := by
  simp [decode, h]

theorem decodeManchByte_pairCells {ds : List Bool} (hp : c.profile = .manchFramed) (h : ds.length = 8) :
    decodeManchByte c (pairCells ds) =
      .ok (if c.manchMsbFirst then .manchByteMsb (ofBits 8 ds) else .manchByteLsb (ofBits 8 ds.reverse)) := by
  simp only [decodeManchByte, pairCells_length, h, hp, cellBits_pairCells]
  cases c.manchMsbFirst <;> rfl

/-- The list of a serial byte is its start bit, its data bits and its stop bit (R96). -/
theorem decodeSerial_frame {ds : List Bool} (hp : c.profile = .bitSerial) (h : ds.length = 8) :
    decodeSerial c ([c.serStartLevel] ++ ds ++ [!c.serStartLevel]) = .ok (.serByte (ofBits 8 ds.reverse)) := by
  have htake : (ds ++ [!c.serStartLevel]).take 8 = ds := List.take_left' h
  have hdrop : (ds ++ [!c.serStartLevel]).drop 8 = [!c.serStartLevel] := List.drop_left' h
  simp [decodeSerial, h, hp, htake, hdrop]

/-- The fields of a payload word are its consecutive blocks of 8 and five times 32 bits (R93). -/
theorem decodePayload_blocks {d v q p e b : List Bool} (hd : d.length = 8) (hv : v.length = 32) (hq : q.length = 32)
    (hp : p.length = 32) (he : e.length = 32) (hb : b.length = 32) (hdev : ofBits 8 d = c.deviceId) :
    decodePayload c (d ++ v ++ q ++ p ++ e ++ b) = .ok (.payloadBin (ofBits 8 d) (ofBits 32 (swapBytes v))
      (ofBits 32 (swapBytes q)) (ofBits 32 (swapBytes p)) (ofBits 32 (swapBytes e)) (ofBits 32 (swapBytes b))) := by
  simp [decodePayload, List.drop_append, List.drop_of_length_le, List.take_of_length_le,
    hd, hv, hq, hp, he, hb, hdev]

theorem decodePayload_encode (d : Byte) (v q p e b : BitVec 32) (hd : d = c.deviceId) :
    decodePayload c (encode c (.payloadBin d v q p e b)).2 = .ok (.payloadBin d v q p e b) := by
  have hlen (u : BitVec 32) : (swapBytes (toBits 32 u)).length = 32 := swapBytes_length (toBits_length 32 u)
  have hread (u : BitVec 32) : ofBits 32 (swapBytes (swapBytes (toBits 32 u))) = u := by
    rw [swapBytes_swapBytes (toBits_length 32 u), ofBits_toBits]
  have hdev : ofBits 8 (toBits 8 d) = c.deviceId := (ofBits_toBits 8 d).trans hd
  refine (decodePayload_blocks (toBits_length 8 d) (hlen v) (hlen q) (hlen p) (hlen e) (hlen b) hdev).trans ?_
  simp only [hread, ofBits_toBits]

theorem decodeHead_encode (s t l : Byte) (h : (Instr.frameHead s t l).wellFormed c = true) :
    decodeHead c (toBits 8 s ++ toBits 8 t ++ toBits 8 l) = .ok (.frameHead s t l) := by
  simp only [Instr.wellFormed, Bool.and_eq_true, decide_eq_true_eq] at h
  obtain ⟨⟨⟨hp, hs⟩, ht⟩, hl⟩ := h
  have hS : (toBits 8 s ++ toBits 8 t ++ toBits 8 l).take 8 = toBits 8 s := by simp
  have hT : ((toBits 8 s ++ toBits 8 t ++ toBits 8 l).drop 8).take 8 = toBits 8 t := by simp
  have hL : (toBits 8 s ++ toBits 8 t ++ toBits 8 l).drop 16 = toBits 8 l := List.drop_left' rfl
  have hlen : (toBits 8 s ++ toBits 8 t ++ toBits 8 l).length = 24 := rfl
  simp only [decodeHead, hlen, hp, hS, hT, hL, ofBits_toBits, ← hs, ← ht, Nat.not_lt.mpr hl, ne_eq,
    not_true_eq_false,
    or_self, if_false]

theorem decodeTail_encode (crc : BitVec 16) (p : Byte) (h : (Instr.frameTail crc p).wellFormed c = true) :
    decodeTail c (toBits 16 crc ++ toBits 8 p) = .ok (.frameTail crc p) := by
  simp only [Instr.wellFormed, Bool.and_eq_true, decide_eq_true_eq] at h
  obtain ⟨hp, hstop⟩ := h
  have hC : (toBits 16 crc ++ toBits 8 p).take 16 = toBits 16 crc := List.take_left' rfl
  have hP : (toBits 16 crc ++ toBits 8 p).drop 16 = toBits 8 p := List.drop_left' rfl
  have hlen : (toBits 16 crc ++ toBits 8 p).length = 24 := rfl
  simp only [decodeTail, hlen, hp, hC, hP, ofBits_toBits, ← hstop, ne_eq, not_true_eq_false, if_false]

/-- The code of a sequencer row is read as that row (R120, R121). -/
theorem decode_of_decodeSeq {bs : List Bool} (hl : bs.length = 4) (h : decodeSeq (ofBits 4 bs) = i) :
    decode c .seq bs = .ok i := by
  rw [decode_seq_of_length hl, h]

/-- The two reserved rows, at every value of their low bits (R122). -/
theorem decodeSeq_reserved :
    (∀ x : BitVec 1, decodeSeq (ofBits 4 ([true, false, true] ++ toBits 1 x)) = .seqReservedAB x)
      ∧ ∀ x : BitVec 2, decodeSeq (ofBits 4 ([true, true] ++ toBits 2 x)) = .seqReservedCF x := by
  decide

/-- Settles O48: row by row, each format's decoder on the word of its encoder. -/
theorem decodeOfEncode : Obligations.DecodeOfEncode := by
  intro c i hwf
  cases i with
  | bLoad | mMeas | mInteg | mGate | tBuild | tCell | tEnd | pCheck | sArm | sHalt =>
    exact decode_of_decodeSeq rfl rfl
  | seqReservedAB x => exact decode_of_decodeSeq rfl (decodeSeq_reserved.1 x)
  | seqReservedCF x => exact decode_of_decodeSeq rfl (decodeSeq_reserved.2 x)
  | isr => rfl
  | manch1 | manch0 =>
    have hp : c.profile = .manchFramed := of_decide_eq_true hwf
    simp [encode, decode, hp]
  | manchByteMsb v =>
    simp only [Instr.wellFormed, Bool.and_eq_true, decide_eq_true_eq] at hwf
    obtain ⟨hp, hm⟩ := hwf
    exact (decodeManchByte_pairCells hp (toBits_length 8 v)).trans (by rw [if_pos hm, ofBits_toBits])
  | manchByteLsb v =>
    simp only [Instr.wellFormed, Bool.and_eq_true, decide_eq_true_eq, Bool.not_eq_true'] at hwf
    obtain ⟨hp, hm⟩ := hwf
    exact (decodeManchByte_pairCells hp (by simp)).trans (by simp [hm])
  | serByte v =>
    have hp : c.profile = .bitSerial := of_decide_eq_true hwf
    exact (decodeSerial_frame hp (by simp)).trans (by simp)
  | payloadBin d v i p e b => exact decodePayload_encode d v i p e b (of_decide_eq_true hwf)
  | nvF32 u =>
    have hlen : (swapBytes (toBits 32 u)).length = 32 := swapBytes_length (toBits_length 32 u)
    simp [encode, decode, hlen, swapBytes_swapBytes (toBits_length 32 u)]
  | frameHead s t l => exact decodeHead_encode s t l hwf
  | frameTail crc p => exact decodeTail_encode crc p hwf

/-! ### What a word that decodes must be, one inversion per format -/

/-- The bits of a reserved code are those of its row. -/
theorem toBits_reserved : ∀ q : BitVec 4, 10 ≤ q.toNat →
    (∃ x, decodeSeq q = .seqReservedAB x ∧ [true, false, true] ++ toBits 1 x = toBits 4 q)
      ∨ ∃ x, decodeSeq q = .seqReservedCF x ∧ [true, true] ++ toBits 2 x = toBits 4 q := by
  decide

/-- A sequencer row is well-formed under every configuration, and its word is the code it was read from. -/
theorem encode_decodeSeq (c : Cfg) (q : BitVec 4) :
    (decodeSeq q).wellFormed c = true ∧ encode c (decodeSeq q) = (.seq, toBits 4 q) := by
  rcases Nat.lt_or_ge q.toNat 10 with hq | hq
  · obtain ⟨⟨n, hn⟩⟩ := q
    replace hq : n < 10 := hq
    interval_cases n <;> exact ⟨rfl, rfl⟩
  · obtain ⟨x, hx, hbits⟩ | ⟨x, hx, hbits⟩ := toBits_reserved q hq
    · rw [hx]
      exact ⟨rfl, congrArg (Format.seq, ·) hbits⟩
    · rw [hx]
      exact ⟨rfl, congrArg (Format.seq, ·) hbits⟩

theorem encode_of_decodeManchCell (h : decode c .manchCell bs = .ok i) :
    i.wellFormed c = true ∧ encode c i = (.manchCell, bs) := by
  simp only [decode] at h
  split_ifs at h with hl hp h1 h0 <;> cases h
  · exact ⟨decide_eq_true (not_not.mp hp), by rw [h1]; rfl⟩
  · exact ⟨decide_eq_true (not_not.mp hp), by rw [h0]; rfl⟩

theorem encode_of_decodeManchByte (h : decodeManchByte c bs = .ok i) :
    i.wellFormed c = true ∧ encode c i = (.manchByte, bs) := by
  rw [decodeManchByte] at h
  split at h
  · cases h
  next hl =>
  split at h
  · cases h
  next hp =>
  split at h
  · cases h
  next ds hds =>
  rw [not_not] at hl hp
  have hbs := eq_pairCells_of_cellBits hds
  have h8 : ds.length = 8 := by
    rw [hbs, pairCells_length] at hl
    omega
  have h8r : ds.reverse.length = 8 := by rw [List.length_reverse, h8]
  split at h <;> cases h
  next hm => exact ⟨by simp [Instr.wellFormed, hp, hm], by simp [encode, toBits_ofBits h8, ← hbs]⟩
  next hm => exact ⟨by simp [Instr.wellFormed, hp, hm], by simp [encode, toBits_ofBits h8r, ← hbs]⟩

theorem encode_of_decodeSerial (h : decodeSerial c bs = .ok i) :
    i.wellFormed c = true ∧ encode c i = (.serialByte, bs) := by
  simp only [decodeSerial] at h
  split_ifs at h with hl hp hss
  rw [not_or, not_not, not_not] at hss
  rw [not_not] at hl hp
  obtain ⟨hstart, hstop⟩ := hss
  cases h
  have h8 : ((bs.drop 1).take 8).reverse.length = 8 := by simp [hl]
  have hdrop : bs.drop 9 = (bs.drop 1).drop 8 := by rw [List.drop_drop]
  have hcut : bs = [c.serStartLevel] ++ (bs.drop 1).take 8 ++ [!c.serStartLevel] := by
    rw [← hstart, ← hstop, hdrop, List.append_assoc, List.take_append_drop, List.take_append_drop]
  refine ⟨decide_eq_true hp, ?_⟩
  simp only [encode, toBits_ofBits h8, List.reverse_reverse]
  rw [← hcut]

/-- A field read from 32 bits of a word is written as those bits. -/
theorem swapBytes_toBits_ofBits (h : bs.length = 32) :
    swapBytes (toBits 32 (ofBits 32 (swapBytes bs))) = bs := by
  rw [toBits_ofBits (swapBytes_length h), swapBytes_swapBytes h]

theorem encode_of_decodePayload (h : decodePayload c bs = .ok i) :
    i.wellFormed c = true ∧ encode c i = (.payload, bs) := by
  simp only [decodePayload] at h
  split_ifs at h with hl hd
  rw [not_not] at hl hd
  cases h
  have hfield (n : Nat) (hn : n + 32 ≤ 168) :
      swapBytes (toBits 32 (ofBits 32 (swapBytes ((bs.drop n).take 32)))) = (bs.drop n).take 32 :=
    swapBytes_toBits_ofBits (by simp; omega)
  have hdev : toBits 8 (ofBits 8 (bs.take 8)) = bs.take 8 := toBits_ofBits (by simp [hl])
  refine ⟨decide_eq_true hd, ?_⟩
  simp only [encode, hdev, hfield, Nat.reduceAdd, Nat.reduceLeDiff, ← List.take_add]
  rw [List.take_of_length_le hl.le]

theorem encode_of_decodeHead (h : decodeHead c bs = .ok i) :
    i.wellFormed c = true ∧ encode c i = (.frameHead, bs) := by
  simp only [decodeHead] at h
  split_ifs at h with hl hp hst hlen
  rw [not_or, not_not, not_not] at hst
  rw [not_not] at hl hp
  obtain ⟨hs, ht⟩ := hst
  cases h
  have hS : toBits 8 (ofBits 8 (bs.take 8)) = bs.take 8 := toBits_ofBits (by simp [hl])
  have hT : toBits 8 (ofBits 8 ((bs.drop 8).take 8)) = (bs.drop 8).take 8 := toBits_ofBits (by simp [hl])
  have hL : toBits 8 (ofBits 8 (bs.drop 16)) = bs.drop 16 := toBits_ofBits (by simp [hl])
  refine ⟨by simp [Instr.wellFormed, hp, hs, ht, Nat.not_lt.mp hlen], ?_⟩
  simp only [encode, hS, hT, hL, ← List.take_add, Nat.reduceAdd, List.take_append_drop]

theorem encode_of_decodeTail (h : decodeTail c bs = .ok i) :
    i.wellFormed c = true ∧ encode c i = (.frameTail, bs) := by
  simp only [decodeTail] at h
  split_ifs at h with hl hp hstop
  rw [not_not] at hl hp hstop
  cases h
  have hC : toBits 16 (ofBits 16 (bs.take 16)) = bs.take 16 := toBits_ofBits (by simp [hl])
  have hP : toBits 8 (ofBits 8 (bs.drop 16)) = bs.drop 16 := toBits_ofBits (by simp [hl])
  refine ⟨by simp [Instr.wellFormed, hp, hstop], ?_⟩
  simp only [encode, hC, hP, List.take_append_drop]

/-- Settles O49: format by format, an accepted word's operands are all of its bits. -/
theorem encodeOfDecode : Obligations.EncodeOfDecode := by
  intro c f bs i h
  cases f with
  | seq =>
    by_cases hl : bs.length = 4
    · rw [decode_seq_of_length hl] at h
      cases h
      have hq := encode_decodeSeq c (ofBits 4 bs)
      rwa [toBits_ofBits hl] at hq
    · simp [decode, hl] at h
  | irq =>
    simp only [decode] at h
    split_ifs at h with h1
    cases h
    exact ⟨rfl, by rw [h1]; rfl⟩
  | manchCell => exact encode_of_decodeManchCell h
  | manchByte => exact encode_of_decodeManchByte h
  | serialByte => exact encode_of_decodeSerial h
  | payload => exact encode_of_decodePayload h
  | nv =>
    simp only [decode] at h
    split_ifs at h with hl
    rw [not_not] at hl
    cases h
    exact ⟨rfl, congrArg (Format.nv, ·) (swapBytes_toBits_ofBits hl)⟩
  | frameHead => exact encode_of_decodeHead h
  | frameTail => exact encode_of_decodeTail h

/-- Settles O50: the six words are read off the decoder's tables. -/
theorem decodingOfTableWords : Obligations.DecodingOfTableWords :=
  ⟨rfl, rfl, rfl, rfl, rfl, rfl⟩

end Sys2Proof
end

section
/-! The CRC (41_frame_codec.md R150, R153): a step of the register is linear and loses nothing, so the residue of
a payload followed by its CRC is 0 and a change within two neighbouring bytes is seen. -/

namespace Sys2Proof.Machine

variable {c d x : BitVec 16} {a b y : Byte}

/-! ### One shift of the register -/

theorem crcShift_eq (c : BitVec 16) :
    crcShift c = c <<< 1 ^^^ (if c.getLsbD 15 then 0x1021#16 else 0#16) := by
  unfold crcShift
  split <;> simp

theorem crcShift_xor (c d : BitVec 16) : crcShift (c ^^^ d) = crcShift c ^^^ crcShift d := by
  have hpoly : (if (c.getLsbD 15 ^^ d.getLsbD 15) then 0x1021#16 else 0#16)
      = (if c.getLsbD 15 then 0x1021#16 else 0#16) ^^^ (if d.getLsbD 15 then 0x1021#16 else 0#16) := by
    cases c.getLsbD 15 <;> cases d.getLsbD 15 <;> rfl
  simp only [crcShift_eq, BitVec.shiftLeft_xor_distrib, BitVec.getLsbD_xor, hpoly]
  ac_rfl

/-- The polynomial's bit 0 shows the bit that was shifted out, and the other bits are still there. -/
theorem eq_zero_of_crcShift_eq_zero (h : crcShift c = 0#16) : c = 0#16 := by
  have hbit (i : Nat) : (crcShift c).getLsbD i = false := by rw [h, BitVec.getLsbD_zero]
  have htop : c.getLsbD 15 = false := by
    by_contra htop
    have h0 := hbit 0
    rw [crcShift_eq, if_pos (Bool.not_eq_false _ |>.mp htop)] at h0
    simp at h0
  ext i hi
  rw [← BitVec.getLsbD_eq_getElem, BitVec.getElem_zero]
  rcases Nat.lt_or_ge i 15 with hlt | hge
  · have hnext := hbit (i + 1)
    rw [crcShift_eq, htop, if_neg Bool.false_ne_true] at hnext
    simpa [show i + 1 < 16 by omega, BitVec.getLsbD_eq_getElem hi] using hnext
  · rwa [show i = 15 by omega]

theorem crcShift_injective : Function.Injective crcShift := by
  intro c d h
  have hz : crcShift (c ^^^ d) = 0#16 := by rw [crcShift_xor, h, BitVec.xor_self]
  exact BitVec.xor_eq_zero_iff.mp (eq_zero_of_crcShift_eq_zero hz)

theorem toNat_crcShift_of_lt (h : c.toNat < 2 ^ 15) : (crcShift c).toNat = 2 * c.toNat := by
  have htop : c.getLsbD 15 = false := Nat.testBit_lt_two_pow h
  rw [crcShift, htop, if_neg Bool.false_ne_true, BitVec.toNat_shiftLeft, Nat.shiftLeft_eq, Nat.mod_eq_of_lt (by omega)]
  omega

/-! ### The eight shifts of a byte -/

/-- The byte enters at the top of the register. -/
abbrev atTop (b : Byte) : BitVec 16 := b.setWidth 16 <<< 8

theorem crcByte_eq_iterate (c : BitVec 16) (b : Byte) : crcByte c b = crcShift^[8] (c ^^^ atTop b) := rfl

theorem iterate_crcShift_xor (n : Nat) (c d : BitVec 16) :
    crcShift^[n] (c ^^^ d) = crcShift^[n] c ^^^ crcShift^[n] d := by
  induction n generalizing c d with
  | zero => rfl
  | succ n ih => simp only [Function.iterate_succ_apply, crcShift_xor, ih]

theorem toNat_iterate_crcShift {n : Nat} (h : c.toNat * 2 ^ n < 2 ^ 16) :
    (crcShift^[n] c).toNat = c.toNat * 2 ^ n := by
  induction n with
  | zero => simp
  | succ n ih =>
    rw [pow_succ, ← Nat.mul_assoc] at h ⊢
    have hprev := ih (by omega)
    rw [Function.iterate_succ_apply', toNat_crcShift_of_lt (by omega), hprev, Nat.mul_comm]

/-- A byte in the low half of the register is moved to the high half: nothing is shifted out. -/
theorem iterate_crcShift_setWidth (b : Byte) : crcShift^[8] (b.setWidth 16) = atTop b := by
  have hb : b.toNat < 2 ^ 8 := b.isLt
  have hw : (b.setWidth 16).toNat = b.toNat := by
    rw [BitVec.toNat_setWidth, Nat.mod_eq_of_lt (by omega)]
  apply BitVec.eq_of_toNat_eq
  rw [toNat_iterate_crcShift (by omega), hw, BitVec.toNat_shiftLeft, hw, Nat.shiftLeft_eq, Nat.mod_eq_of_lt (by omega)]

theorem crcByte_injective (b : Byte) : Function.Injective (crcByte · b) := by
  intro c d h
  have hreg : c ^^^ atTop b = d ^^^ atTop b := crcShift_injective.iterate 8 h
  exact (BitVec.xor_left_inj _).mp hreg

/-- The register and its high byte: what is left of it once that byte is taken out is the low byte. -/
theorem xor_atTop_crcHigh (c : BitVec 16) : c ^^^ atTop (crcHigh c) = (crcLow c).setWidth 16 := by
  ext i hi
  by_cases hlow : i < 8
  · simp [crcHigh, crcLow, hlow, BitVec.getLsbD_eq_getElem hi]
  · simp [crcHigh, crcLow, hlow, show i - 8 < 8 by omega, show 8 + (i - 8) = i by omega,
      BitVec.getLsbD_eq_getElem hi]

theorem crcByte_crcByte_own (c : BitVec 16) : crcByte (crcByte c (crcHigh c)) (crcLow c) = 0#16 := by
  rw [crcByte_eq_iterate c, xor_atTop_crcHigh, iterate_crcShift_setWidth, crcByte_eq_iterate, BitVec.xor_self]
  rfl

/-- Settles O26: the CRC's two bytes, entering one after the other, cancel the register. -/
theorem crcResidueIsZero : Obligations.CrcResidueIsZero := by
  intro p
  rw [crc16, List.foldl_append]
  exact crcByte_crcByte_own (crc16 p)

/-! ### A change within two bytes -/

theorem foldl_crcByte_injective (bs : List Byte) : Function.Injective (bs.foldl crcByte) := by
  induction bs with
  | nil => exact fun _ _ h => h
  | cons b bs ih => exact fun c d h => crcByte_injective b (ih h)

/-- A byte whose copy in the high half is one in the low half is 0, and so is that one. -/
theorem eq_zero_of_atTop_eq_setWidth (h : atTop a = b.setWidth 16) : a = 0#8 ∧ b = 0#8 := by
  have hv := congrArg BitVec.toNat h
  have ha : a.toNat < 2 ^ 8 := a.isLt
  have hb : b.toNat < 2 ^ 8 := b.isLt
  simp only [BitVec.toNat_shiftLeft, BitVec.toNat_setWidth, Nat.shiftLeft_eq] at hv
  exact ⟨BitVec.eq_of_toNat_eq (by simp; omega), BitVec.eq_of_toNat_eq (by simp; omega)⟩

/-- From one register, two bytes lead to a register that no other two bytes lead to. -/
theorem crcByte_crcByte_inj {r : BitVec 16} {x : Byte} (h : crcByte (crcByte r x) y = crcByte (crcByte r a) b) :
    x = a ∧ y = b := by
  have houter : crcShift^[8] (r ^^^ atTop x) ^^^ atTop y = crcShift^[8] (r ^^^ atTop a) ^^^ atTop b :=
    crcShift_injective.iterate 8 h
  have hlin : crcShift^[8] (atTop (x ^^^ a)) = atTop (y ^^^ b) := by
    have htop (u v : Byte) : atTop (u ^^^ v) = atTop u ^^^ atTop v := by
      rw [atTop, BitVec.setWidth_xor, BitVec.shiftLeft_xor_distrib]
    rw [iterate_crcShift_xor, iterate_crcShift_xor] at houter
    rw [htop, htop, iterate_crcShift_xor]
    generalize crcShift^[8] (atTop x) = X, crcShift^[8] (atTop a) = A, atTop y = Y, atTop b = B at houter ⊢
    rw [BitVec.xor_assoc, BitVec.xor_assoc, BitVec.xor_right_inj] at houter
    apply BitVec.xor_eq_zero_iff.mp
    calc X ^^^ A ^^^ (Y ^^^ B) = X ^^^ Y ^^^ (A ^^^ B) := by ac_rfl
      _ = 0#16 := BitVec.xor_eq_zero_iff.mpr houter
  rw [← iterate_crcShift_setWidth, ← iterate_crcShift_setWidth] at hlin
  have hbytes := crcShift_injective.iterate 8 hlin
  rw [iterate_crcShift_setWidth] at hbytes
  obtain ⟨hx, hy⟩ := eq_zero_of_atTop_eq_setWidth hbytes
  exact ⟨BitVec.xor_eq_zero_iff.mp hx, BitVec.xor_eq_zero_iff.mp hy⟩

/-- Settles O27: both sequences have the same register before the two bytes and, were both residues 0, the same after
them. -/
theorem crcDetectsShortBursts : Obligations.CrcDetectsShortBursts := by
  intro p pre post a b x y hp hne hzero
  have hres := crcResidueIsZero p
  rw [hp] at hres
  have hsame := hzero.trans hres.symm
  simp only [crc16, List.foldl_append] at hsame
  obtain ⟨hx, hy⟩ := crcByte_crcByte_inj (foldl_crcByte_injective post hsame)
  exact hne (by rw [hx, hy])

end Sys2Proof.Machine
end

section
/-! The line code and the frame (41_frame_codec.md): a Manchester byte is its eight bits in sending order, each as
a pair of half-cells, and the reference decoder reads them back; the levels and the bytes that the serializer
selects one by one are those of the code and of the frame. -/

namespace Sys2Proof.Machine

variable {c : Cfg} {s : State} {msb : Bool} {v : Byte} {p : List Byte}

/-! ### Manchester half-cells as pairs of bits (R158, R159) -/

/-- The bits of a byte in the order in which they are sent (R159). -/
def sentBits (msb : Bool) (v : Byte) : List Bool := if msb then toBits 8 v else (toBits 8 v).reverse

@[simp] theorem length_sentBits (msb : Bool) (v : Byte) : (sentBits msb v).length = 8 := by
  cases msb <;> rfl

theorem manchBit_eq (b : Bool) : manchBit b = [b, !b] := by cases b <;> rfl

theorem manchByte_eq_pairCells (msb : Bool) (v : Byte) : manchByte msb v = pairCells (sentBits msb v) := by
  unfold manchByte
  simp only [manchBit_eq]
  cases msb <;> rfl

theorem flatMap_manchByte (msb : Bool) (bs : List Byte) :
    bs.flatMap (manchByte msb) = pairCells (bs.flatMap (sentBits msb)) := by
  have hpairs : manchByte msb = fun v => (sentBits msb v).flatMap fun b => [b, !b] :=
    funext (manchByte_eq_pairCells msb)
  rw [hpairs, pairCells, List.flatMap_assoc]

theorem length_flatMap_sentBits (msb : Bool) (bs : List Byte) :
    (bs.flatMap (sentBits msb)).length = 8 * bs.length := by
  simp [List.length_flatMap, Nat.mul_comm]

/-! ### Balance and self-clocking (R160) -/

theorem getElem?_pairCells_even (bs : List Bool) (i : Nat) : (pairCells bs)[2 * i]? = bs[i]? := by
  induction bs generalizing i with
  | nil => rfl
  | cons b bs ih =>
    cases i with
    | zero => rfl
    | succ i => exact ih i

theorem getElem?_pairCells_odd (bs : List Bool) (i : Nat) : (pairCells bs)[2 * i + 1]? = bs[i]?.map not := by
  induction bs generalizing i with
  | nil => rfl
  | cons b bs ih =>
    cases i with
    | zero => rfl
    | succ i => exact ih i

theorem count_pairCells (bs : List Bool) (l : Bool) : (pairCells bs).count l = bs.length := by
  induction bs with
  | nil => rfl
  | cons b bs ih =>
    have hcons : pairCells (b :: bs) = b :: (!b) :: pairCells bs := rfl
    rw [hcons, List.count_cons, List.count_cons, ih]
    cases b <;> cases l <;> rfl

theorem pairCells_cell_ne (bs : List Bool) {i : Nat} (h : i < bs.length) :
    (pairCells bs)[2 * i]? ≠ (pairCells bs)[2 * i + 1]? := by
  rw [getElem?_pairCells_even, getElem?_pairCells_odd, List.getElem?_eq_getElem h]
  cases bs[i] <;> decide

/-- Settles O24: the half-cells are pairs of a bit and its inverse, so each pair has one of either level, and of three
half-cells in a row two are of one pair. -/
theorem manchesterIsBalancedAndSelfClocking : Obligations.ManchesterIsBalancedAndSelfClocking := by
  intro msb bs h
  have hpairs : h = pairCells (bs.flatMap (sentBits msb)) := flatMap_manchByte msb bs
  have hbits := length_flatMap_sentBits msb bs
  have hlen : h.length = 2 * (8 * bs.length) := by rw [hpairs, pairCells_length, hbits]
  have hcell (i : Nat) (hi : 2 * i + 1 < h.length) : h[2 * i]? ≠ h[2 * i + 1]? := by
    rw [hpairs]
    exact pairCells_cell_ne _ (by omega)
  refine ⟨?ones, ?zeros, hcell, ?run⟩
  case ones => rw [hpairs, count_pairCells, hbits]
  case zeros => rw [hpairs, count_pairCells, hbits]
  case run =>
    rintro i hi ⟨h01, h12⟩
    rcases Nat.even_or_odd' i with ⟨j, rfl | rfl⟩
    · exact hcell j (by omega) h01
    · exact hcell (j + 1) (by omega) h12

/-! ### The reference decoder (95_test_vectors.md §2.6) -/

theorem byteSent_sentBits (msb : Bool) (v : Byte) : byteSent msb (sentBits msb v) = v := by
  cases msb <;> simp [byteSent, sentBits]

theorem bytesSent_flatMap_sentBits (msb : Bool) (bs : List Byte) :
    bytesSent msb bs.length (bs.flatMap (sentBits msb)) = bs := by
  induction bs with
  | nil => rfl
  | cons v bs ih =>
    rw [List.flatMap_cons, List.length_cons, bytesSent, List.take_left' (length_sentBits msb v),
      List.drop_left' (length_sentBits msb v), byteSent_sentBits, ih]

theorem frameBytes_eq (c : Cfg) (p : List Byte) (crc : BitVec 16) :
    frameBytes c p crc = List.replicate c.k c.preambleByte ++
      c.sof0 :: c.sof1 :: BitVec.ofNat 8 p.length :: (p ++ [crcHigh crc, crcLow crc, c.stopByte]) := by
  simp [frameBytes]

theorem length_frameBytes (c : Cfg) (p : List Byte) (crc : BitVec 16) :
    (frameBytes c p crc).length = c.k + 6 + p.length := by
  simp [frameBytes]
  omega

/-- The decoder takes the half-cells of any bytes apart into those bytes. -/
theorem referenceDecode_flatMap (c : Cfg) (bs : List Byte) (h : c.k + 6 ≤ bs.length) :
    referenceDecode c (bs.flatMap (manchByte c.manchMsbFirst)) =
      let l := (bs.getD (c.k + 2) 0#8).toNat
      let p := (bs.drop (c.k + 3)).take l
      if bs.take (c.k + 2) ≠ List.replicate c.k c.preambleByte ++ [c.sof0, c.sof1] then none
      else if bs.length ≠ c.k + 6 + l then none
      else if bs.drop (c.k + 3 + l) ≠ [crcHigh (crc16 p), crcLow (crc16 p), c.stopByte] then none
      else some p := by
  have hlen : (bs.flatMap (manchByte c.manchMsbFirst)).length = 16 * bs.length := by
    rw [flatMap_manchByte, pairCells_length, length_flatMap_sentBits]
    omega
  have hdiv : 16 * bs.length / 16 = bs.length := by omega
  have hok : ¬ (16 * bs.length % 16 ≠ 0 ∨ 16 * bs.length / 16 < c.k + 6) := by omega
  rw [referenceDecode, hlen, if_neg hok, hdiv, flatMap_manchByte, cellBits_pairCells]
  simp only [bytesSent_flatMap_sentBits]

/-- Settles O25: the bytes of the frame are recovered, and each of the decoder's tests finds what `frameBytes` laid
down. -/
theorem referenceDecoderRecoversThePayload : Obligations.ReferenceDecoderRecoversThePayload := by
  intro c p hwf hp
  have hlen := length_frameBytes c p (crc16 p)
  obtain ⟨-, -, -, -, -, hmax, -⟩ := wf_bounds hwf
  have hhead : (frameBytes c p (crc16 p)).take (c.k + 2) = List.replicate c.k c.preambleByte ++ [c.sof0, c.sof1] := by
    simp only [frameBytes, List.append_assoc (List.replicate c.k c.preambleByte ++ [c.sof0, c.sof1])]
    exact List.take_left' (by simp)
  have hl : ((frameBytes c p (crc16 p)).getD (c.k + 2) 0#8).toNat = p.length := by
    have hbyte : (frameBytes c p (crc16 p))[c.k + 2]? = some (BitVec.ofNat 8 p.length) := by
      simp [frameBytes]
    rw [List.getD_eq_getElem?_getD, hbyte, Option.getD_some, BitVec.toNat_ofNat, Nat.mod_eq_of_lt (by omega)]
  have hdrop : (frameBytes c p (crc16 p)).drop (c.k + 3)
      = p ++ [crcHigh (crc16 p), crcLow (crc16 p), c.stopByte] := by
    simp [frameBytes_eq, List.drop_append]
  have htail : (frameBytes c p (crc16 p)).drop (c.k + 3 + p.length)
      = [crcHigh (crc16 p), crcLow (crc16 p), c.stopByte] := by
    rw [← List.drop_drop, hdrop, List.drop_left]
  rw [referenceDecode_flatMap c _ (by omega)]
  simp only [hl, hdrop, List.take_left, htail, hhead, hlen, ne_eq, not_true_eq_false, if_false]

/-! ### The levels of a byte's cells (R183) -/

theorem cellLevels_manchFramed (hp : c.profile = .manchFramed) (v : Byte) (k : Nat) :
    [cellLevel c v k false, cellLevel c v k true] = manchBit (v.getLsbD (if c.manchMsbFirst then 7 - k else k)) := by
  rw [manchBit_eq]
  simp [cellLevel, hp]

theorem cellLevel_bitSerial (hp : c.profile = .bitSerial) (v : Byte) {k : Nat} (hk : k < 10) (h : Bool) :
    some (cellLevel c v k h) = (serialCells c.serStartLevel v)[k]? := by
  interval_cases k <;> simp [cellLevel, hp] <;> rfl

/-- The list of a function's values on `0, 1, …` is the list whose elements they are. -/
theorem map_range_of_getElem? {α : Type} {f : Nat → α} {l : List α} (h : ∀ i < l.length, some (f i) = l[i]?) :
    (List.range l.length).map f = l := by
  apply List.ext_getElem (by simp)
  intro i h1 h2
  have hi := h i h2
  rw [List.getElem?_eq_getElem h2, Option.some.injEq] at hi
  simpa using hi

/-- Settles O17: in `MANCH_FRAMED` cell by cell the pair of a bit, in `BIT_SERIAL` cell by cell a level held twice. -/
theorem cellLevelsAreTheHalfCells : Obligations.CellLevelsAreTheHalfCells := by
  intro c v
  cases hp : c.profile with
  | manchFramed =>
    simp only [cellLevels_manchFramed hp, cells, byteHalfcells, hp, manchByte]
  | bitSerial =>
    have hheld (k : Nat) : cellLevel c v k true = cellLevel c v k false := by simp [cellLevel, hp]
    have hcells : (List.range 10).map (cellLevel c v · false) = serialCells c.serStartLevel v :=
      map_range_of_getElem? (l := serialCells c.serStartLevel v) fun k hk => cellLevel_bitSerial hp v hk false
    simp only [hheld, cells, byteHalfcells, hp, serialByte, ← hcells, List.flatMap_map]

/-! ### The bytes that the serializer selects (R155) -/

theorem flen_of_manchFramed (h : s.cfg.profile = .manchFramed) : flen s = s.cfg.k + 6 + s.plen.toNat := by
  simp only [flen, h]

theorem flen_of_bitSerial (h : s.cfg.profile = .bitSerial) : flen s = s.plen.toNat + 2 := by
  simp only [flen, h]

/-- What is sent of a payload and its CRC: the frame, or the stream (R97, R154). -/
def sentBytes (s : State) (p : List Byte) : List Byte :=
  match s.cfg.profile with
  | .manchFramed => frameBytes s.cfg p s.crcReg
  | .bitSerial => streamBytes p s.crcReg

theorem sentBytes_of_manchFramed (h : s.cfg.profile = .manchFramed) :
    sentBytes s p = frameBytes s.cfg p s.crcReg := by
  simp only [sentBytes, h]

theorem sentBytes_of_bitSerial (h : s.cfg.profile = .bitSerial) : sentBytes s p = streamBytes p s.crcReg := by
  simp only [sentBytes, h]

theorem length_sentBytes (h : s.plen.toNat = p.length) : (sentBytes s p).length = flen s := by
  cases hp : s.cfg.profile with
  | manchFramed => rw [sentBytes_of_manchFramed hp, flen_of_manchFramed hp, length_frameBytes, h]
  | bitSerial => rw [sentBytes_of_bitSerial hp, flen_of_bitSerial hp, streamBytes, List.length_append, h]; rfl

/-- After the preamble and its three bytes stand the payload and its three. -/
theorem frameByte_after_head (hp : s.cfg.profile = .manchFramed) (j : Nat) :
    frameByte s (s.cfg.k + 3 + j) =
      if j < s.plen.toNat then payloadByte s j
      else [crcHigh s.crcReg, crcLow s.crcReg, s.cfg.stopByte][j - s.plen.toNat]? := by
  have hpay : s.cfg.k + 3 + j - s.cfg.k - 3 = j := by omega
  simp only [frameByte, hp, hpay, Nat.add_lt_add_iff_left, show ¬ s.cfg.k + 3 + j < s.cfg.k by omega,
    show ¬ s.cfg.k + 3 + j = s.cfg.k by omega, show ¬ s.cfg.k + 3 + j = s.cfg.k + 1 by omega,
    show ¬ s.cfg.k + 3 + j = s.cfg.k + 2 by omega, if_false]
  split
  · rfl
  · obtain ⟨m, hm⟩ := Nat.exists_eq_add_of_le (Nat.not_lt.mp ‹¬ j < s.plen.toNat›)
    have h0 : s.cfg.k + 3 + (s.plen.toNat + m) = s.cfg.k + 3 + s.plen.toNat ↔ m = 0 := by omega
    have h1 : s.cfg.k + 3 + (s.plen.toNat + m) = s.cfg.k + 4 + s.plen.toNat ↔ m = 1 := by omega
    have h2 : s.cfg.k + 3 + (s.plen.toNat + m) = s.cfg.k + 5 + s.plen.toNat ↔ m = 2 := by omega
    rw [hm, Nat.add_sub_cancel_left]
    simp only [h0, h1, h2]
    match m with
    | 0 | 1 | 2 => rfl
    | m + 3 => simp

/-- Where the payload stands in `pbuf`, `frame_byte(i)` is byte `i` of what is sent. -/
theorem frameByte_eq_getElem? (h : HoldsPayload s p) (i : Nat) : frameByte s i = (sentBytes s p)[i]? := by
  obtain ⟨hlen, hpay⟩ := h
  have hplen : BitVec.ofNat 8 p.length = s.plen := by rw [← hlen, BitVec.ofNat_toNat, BitVec.setWidth_eq]
  have htail (j : Nat) (rest : List Byte) :
      (if j < s.plen.toNat then payloadByte s j else rest[j - s.plen.toNat]?) = (p ++ rest)[j]? := by
    rw [List.getElem?_append, hlen]
    split
    · exact hpay j ‹_›
    · rfl
  cases hp : s.cfg.profile with
  | manchFramed =>
    rw [sentBytes_of_manchFramed hp, frameBytes_eq, hplen]
    rcases Nat.lt_or_ge i s.cfg.k with hi | hi
    · rw [List.getElem?_append_left (by simpa using hi)]
      simp [frameByte, hp, hi]
    · obtain ⟨m, rfl⟩ := Nat.exists_eq_add_of_le hi
      rw [List.getElem?_append_right (by simp), List.length_replicate, Nat.add_sub_cancel_left]
      match m with
      | 0 => simp [frameByte, hp]
      | 1 => simp [frameByte, hp]
      | 2 => simp [frameByte, hp]
      | j + 3 =>
        rw [show s.cfg.k + (j + 3) = s.cfg.k + 3 + j by omega, frameByte_after_head hp, htail]
        rfl
  | bitSerial =>
    rw [sentBytes_of_bitSerial hp, streamBytes, ← htail]
    simp only [frameByte, hp]
    split
    · rfl
    · obtain ⟨m, rfl⟩ := Nat.exists_eq_add_of_le (Nat.not_lt.mp ‹¬ i < s.plen.toNat›)
      rw [Nat.add_sub_cancel_left]
      match m with
      | 0 => simp
      | 1 => simp
      | m + 2 => simp

theorem map_frameByte_range (h : HoldsPayload s p) :
    (List.range (flen s)).map (frameByte s) = (sentBytes s p).map some := by
  have hlen : ((sentBytes s p).map some).length = flen s := by rw [List.length_map, length_sentBytes h.1]
  rw [← hlen]
  refine map_range_of_getElem? fun i hi => ?_
  rw [List.length_map] at hi
  rw [frameByte_eq_getElem? h, List.getElem?_map, List.getElem?_eq_getElem hi, Option.map_some]

/-- Settles O18: `frame_byte` reads off the list of the bytes sent, whose length is `FLEN`. -/
theorem selectedBytesAreTheFrame : Obligations.SelectedBytesAreTheFrame := by
  intro s p h
  refine ⟨fun hp => ?_, fun hp => ?_, fun i hi => ?_⟩
  · rw [map_frameByte_range h, sentBytes_of_manchFramed hp]
  · rw [map_frameByte_range h, sentBytes_of_bitSerial hp]
  · rw [frameByte_eq_getElem? h, List.getElem?_eq_none (by rwa [length_sentBytes h.1])]

end Sys2Proof.Machine
end

section
/-! What each step answers in a ready state, one equation per outcome (44_scheduler.md R221 to R230), and the
statements that are read off one equation. -/

namespace Sys2Proof.Machine

variable {i : Instr} {s t : State}

/-! ### `B_LOAD` (R221) -/

theorem exec_bLoad_of_answered (hr : Ready s) (hn : answered s.nvIn = true) (ht : answered s.nowIn = true) :
    exec .bLoad s = .next { s with
      acc := loadValue (answerOr (storeAnswer s) s.nvIn)
      wm := loadValue (answerOr (storeAnswer s) s.nvIn)
      lastTs := answerOr (Config.freeNow s.draws) s.nowIn
      seq := Seq.mMeas
      trace := s.trace ++ [.nvRd s.cfg.nvOffset 4]
      nvIn := s.nvIn.tail
      nowIn := s.nowIn.tail
      draws := s.draws + 1 } := by
  change execBLoad s = _
  simp [execBLoad, onMain_of_ready hr, hn, ht, loadStore, emit]

theorem exec_bLoad_of_unanswered (hr : Ready s) (h : ¬ (answered s.nvIn = true ∧ answered s.nowIn = true)) :
    exec .bLoad s = .next { s with nvIn := skipUnanswered s.nvIn, nowIn := skipUnanswered s.nowIn } := by
  rw [← Bool.and_eq_true] at h
  change execBLoad s = _
  rw [execBLoad, onMain_of_ready hr, if_neg h]

/-- The four bytes of an answer, put one above the other. -/
theorem leWord_eq_append (b0 b1 b2 b3 : Byte) : leWord b0 b1 b2 b3 = b3 ++ b2 ++ b1 ++ b0 := by
  have hpast (b : Byte) {n : Nat} (h : ¬ n < 8) : b.getLsbD n = false := BitVec.getLsbD_of_ge b n (Nat.not_lt.mp h)
  ext j hj
  simp only [leWord, BitVec.getElem_or, BitVec.getElem_shiftLeft, BitVec.getElem_setWidth]
  rw [BitVec.getElem_append]
  split
  next h0 => simp [h0, show j < 16 by omega, show j < 24 by omega]
  next h0 =>
  rw [BitVec.getElem_append]
  split
  next h1 =>
    simp [hpast b0 h0, h0, show j < 16 by omega, show j < 24 by omega, h1]
  next h1 =>
  rw [BitVec.getElem_append, hpast b0 h0, hpast b1 h1]
  split
  next h2 =>
    simp [show ¬ j < 16 by omega, show j < 24 by omega, Nat.sub_sub, show j - 16 < 8 by omega]
  next h2 =>
    simp [show ¬ j < 24 by omega, hpast b2 (show ¬ j - 16 < 8 by omega), Nat.sub_sub, show j - 24 < 8 by omega]

theorem loadValue_eq (r : NvResp) :
    loadValue r =
      if r.present = true ∧ fge (r.b3 ++ r.b2 ++ r.b1 ++ r.b0) 0x00000000#32 = true
          ∧ fle (r.b3 ++ r.b2 ++ r.b1 ++ r.b0) Config.accMax = true
      then r.b3 ++ r.b2 ++ r.b1 ++ r.b0 else 0x00000000#32 := by
  simp only [loadValue, loadValid, respPattern, leWord_eq_append, Bool.and_eq_true, and_assoc]

/-- Settles O1: the answered case of `B_LOAD`, with the validated value written out. -/
theorem bootLoadsValidatedAccumulator : Obligations.BootLoadsValidatedAccumulator := by
  intro s hr hn ht r u v now
  refine ⟨_, exec_bLoad_of_answered hr hn ht, ?_⟩
  have hv : loadValue r = v := loadValue_eq r
  simp only [r] at hv
  simp only [hv, now]

/-! ### The store's own answer (R62, R64) -/

theorem storeAnswer_of_stored {b0 b1 b2 b3 : Byte}
    (h0 : readByte s.nv s.cfg.nvOffset = some b0) (h1 : readByte s.nv (s.cfg.nvOffset + 1) = some b1)
    (h2 : readByte s.nv (s.cfg.nvOffset + 2) = some b2) (h3 : readByte s.nv (s.cfg.nvOffset + 3) = some b3) :
    storeAnswer s = ⟨true, b0, b1, b2, b3⟩ := by
  simp only [storeAnswer, h0, h1, h2, h3]

theorem present_storeAnswer_of_absent {j : Nat} (hj : j < 4) (h : readByte s.nv (s.cfg.nvOffset + j) = none) :
    (storeAnswer s).present = false := by
  unfold storeAnswer
  split
  next h0 h1 h2 h3 => interval_cases j <;> simp_all
  next => rfl

theorem loadValue_of_absent {r : NvResp} (h : r.present = false) : loadValue r = 0x00000000#32 := by
  simp [loadValue, loadValid, h]

/-- Settles O2: with nothing scripted the answer drawn is `storeAnswer`. -/
theorem bootReadsTheStoredBytes : Obligations.BootReadsTheStoredBytes := by
  intro s hr hn ht
  have hload := exec_bLoad_of_answered hr (by rw [hn, answered_nil]) ht
  rw [hn, answerOr_nil] at hload
  constructor
  · intro b0 b1 b2 b3 h0 h1 h2 h3
    rw [storeAnswer_of_stored h0 h1 h2 h3] at hload
    exact ⟨_, hload, rfl, rfl, rfl⟩
  · rintro ⟨j, hj, h⟩
    rw [loadValue_of_absent (present_storeAnswer_of_absent hj h)] at hload
    exact ⟨_, hload, rfl, rfl, rfl⟩

/-! ### `M_MEAS` (R222) -/

theorem exec_mMeas_of_answered (hr : Ready s) (h : answered s.measIn = true) :
    exec .mMeas s = .next { s with
      vrms := (answerOr (Config.freeMeas s.draws) s.measIn).vrms
      irms := (answerOr (Config.freeMeas s.draws) s.measIn).irms
      vbat := (answerOr (Config.freeMeas s.draws) s.measIn).vbat
      seq := Seq.mInteg
      trace := s.trace ++ [.measReq]
      measIn := s.measIn.tail
      draws := s.draws + 1 } := by
  change execMMeas s = _
  rw [execMMeas, onMain_of_ready hr, if_pos h, emit]

theorem exec_mMeas_of_unanswered (hr : Ready s) (h : answered s.measIn = false) :
    exec .mMeas s = .next { s with measIn := skipUnanswered s.measIn } := by
  change execMMeas s = _
  rw [execMMeas, onMain_of_ready hr, if_neg (Bool.eq_false_iff.mp h)]

/-- Settles O5. -/
theorem measurementIsLatched : Obligations.MeasurementIsLatched := fun _ => exec_mMeas_of_answered

/-! ### `M_INTEG` (R223) -/

theorem exec_mInteg_of_answered (hr : Ready s) (h : answered s.nowIn = true) :
    exec .mInteg s = .next { s with
      power := fmul s.vrms s.irms
      acc := integrated s (fmul s.vrms s.irms) (answerOr (Config.freeNow s.draws) s.nowIn)
      lastTs := answerOr (Config.freeNow s.draws) s.nowIn
      seq := Seq.mGate
      nowIn := s.nowIn.tail
      draws := s.draws + 1 } := by
  change execMInteg s = _
  simp [execMInteg, onMain_of_ready hr, h]

theorem exec_mInteg_of_unanswered (hr : Ready s) (h : answered s.nowIn = false) :
    exec .mInteg s = .next { s with nowIn := skipUnanswered s.nowIn } := by
  change execMInteg s = _
  rw [execMInteg, onMain_of_ready hr, if_neg (Bool.eq_false_iff.mp h)]

/-- Settles O6: the answered case of `M_INTEG`; the clock's test is the comparison of the two times. -/
theorem integrationStep : Obligations.IntegrationStep := by
  intro s hr h now p inc
  refine ⟨_, exec_mInteg_of_answered hr h, ?_⟩
  have hinc : increment s p now = inc := by simp only [increment, clockAdvanced, decide_eq_true_eq, inc]
  have hacc : integrated s p now = if isfinite (fadd s.acc inc) = true then fadd s.acc inc else s.acc := by
    rw [integrated, hinc]
  simp only [p, now] at hacc
  simp only [hacc, p, now]

/-- Settles O12: each unanswered case differs from the state before in the scripts alone. -/
theorem unansweredDrawsChangeNothing : Obligations.UnansweredDrawsChangeNothing := by
  intro s hr
  refine ⟨fun h => ?load, fun h => ⟨_, exec_mMeas_of_unanswered hr h, rfl⟩,
    fun h => ⟨_, exec_mInteg_of_unanswered hr h, rfl⟩⟩
  case load =>
    have hnot : ¬ (answered s.nvIn = true ∧ answered s.nowIn = true) := by
      rintro ⟨hn, ht⟩
      rcases h with h | h
      · exact Bool.false_ne_true (h.symm.trans hn)
      · exact Bool.false_ne_true (h.symm.trans ht)
    exact ⟨_, exec_bLoad_of_unanswered hr hnot, rfl⟩

/-! ### `M_GATE` (R224) -/

theorem flt_self (a : F32) : flt a a = false := by simp [flt]

theorem flt_of_isnan {a b : F32} (h : isnan a = true) : flt a b = false := by simp [flt, h]

/-- Settles O11: neither a value equal to the floor nor a NaN is below it. -/
theorem floorAndNaNTransmit : Obligations.FloorAndNaNTransmit := by
  intro s hr h
  have hnot : undervolted s = false := by
    rcases h with h | h
    · rw [undervolted, h, flt_self]
    · exact flt_of_isnan h
  exact ⟨_, exec_mGate_of_not_undervolted hr hnot, rfl, rfl, rfl⟩

/-! ### `S_HALT` (R230) -/

theorem exec_sHalt_of_wakeFlag (hr : Ready s) (h : s.wakeFlag = true) :
    exec .sHalt s = .next { s with
      halted := false
      trace := s.trace ++ [.wake]
      sleepCnt := s.sleepCnt + 1#8
      seq := if s.sleepCnt.toNat + 1 < s.cfg.sleepIntervals then Seq.sArm else Seq.mMeas } := by
  change execSHalt s = _
  rw [execSHalt, onMain_of_ready hr, if_pos h, emit]

theorem exec_sHalt_of_not_wakeFlag (hr : Ready s) (h : s.wakeFlag = false) : exec .sHalt s = .next s := by
  change execSHalt s = _
  rw [execSHalt, onMain_of_ready hr, if_neg (Bool.eq_false_iff.mp h)]

/-- Settles O34. -/
theorem wakeStep : Obligations.WakeStep :=
  fun _ hr => ⟨exec_sHalt_of_wakeFlag hr, exec_sHalt_of_not_wakeFlag hr⟩

/-! ### The guards (R9, R123) -/

/-- The ten instructions that `MAIN` runs. -/
abbrev mainInstrs : List Instr :=
  [.bLoad, .mMeas, .mInteg, .mGate, .tBuild, .tCell, .tEnd, .pCheck, .sArm, .sHalt]

/-- Each of them stands behind the guard of `MAIN`. -/
theorem exec_eq_onMain (hi : i ∈ mainInstrs) : ∃ k, ∀ s, exec i s = onMain s k := by
  cases i with
  | bLoad | mMeas | mInteg | mGate | tBuild | tCell | tEnd | pCheck | sArm | sHalt => exact ⟨_, fun _ => rfl⟩
  | _ => simp at hi

/-- Every instruction but the reserved ones stands behind the configuration's guard. -/
theorem exec_eq_configured (hAB : ∀ x, i ≠ .seqReservedAB x) (hCF : ∀ x, i ≠ .seqReservedCF x) :
    ∃ k, ∀ s, exec i s = configured s k := by
  cases i with
  | seqReservedAB x => exact absurd rfl (hAB x)
  | seqReservedCF x => exact absurd rfl (hCF x)
  | _ => exact ⟨_, fun _ => rfl⟩

/-- Settles O42: the guard's test of the counters fails. -/
theorem counterOutOfRangeFaults : Obligations.CounterOutOfRangeFaults := by
  intro i s hi hwf h
  have hc : countersInRange s = false := by
    rw [Bool.eq_false_iff, ne_eq, countersInRange_iff]
    omega
  obtain ⟨k, hk⟩ := exec_eq_onMain hi
  rw [hk, onMain_of_out_of_range hwf hc]

/-- What well-formedness of a configuration says beyond its bounds (R9, R167, R266). -/
theorem wf_values {c : Cfg} (h : c.wf = true) :
    isfinite c.persistThreshold = true ∧ flt 0x00000000#32 c.persistThreshold = true
      ∧ isfinite c.vbatFloor = true ∧ isfinite c.elapsedFallback = true
      ∧ fge c.elapsedFallback 0x00000000#32 = true
      ∧ c.transport = .lineCoder ∧ c.payloadFormat = .binary := by
  simp only [Cfg.wf, Bool.and_eq_true, decide_eq_true_eq] at h
  tauto

/-- Settles O43: each of the conditions contradicts a clause of well-formedness, and every meaning but the reserved
ones stands behind `configured`. -/
theorem illFormedConfigurationIsRefused : Obligations.IllFormedConfigurationIsRefused := by
  intro i s hAB hCF h
  have hwf : s.cfg.wf = false := by
    by_contra hwf
    rw [Bool.not_eq_false] at hwf
    have hb := wf_bounds hwf
    obtain ⟨h1, h2, h3, h4, h5, h6, h7⟩ := wf_values hwf
    simp only [h1, h2, h3, h4, h5, h6, h7, Bool.true_eq_false, reduceCtorEq, or_false] at h
    omega
  obtain ⟨k, hk⟩ := exec_eq_configured hAB hCF
  rw [hk, configured_of_not_wf hwf]

/-! ### The words of the line (R158, R159, R163) -/

theorem getLastD_append_manchByte (pre : List Bool) (msb : Bool) (v : Byte) (d : Bool) :
    (pre ++ manchByte msb v).getLastD d = !v.getLsbD (if msb then 0 else 7) := by
  have hne : manchByte msb v ≠ [] := by
    rw [manchByte_eq_pairCells]
    cases msb <;> exact List.cons_ne_nil _ _
  rw [List.getLastD_eq_getLast?, List.getLast?_append_of_ne_nil _ hne, manchByte_eq_pairCells]
  cases msb <;> rfl

/-- A meaning that drives the line through half-cells changes the line and the trace alone. -/
theorem configured_driveAll {l : Bool} (ls : State → List Bool) (hwf : s.cfg.wf = true)
    (hl : (ls s).getLastD s.line = l) :
    configured s (fun s => .next (driveAll s (ls s)))
      = .next { s with line := l, trace := s.trace ++ (ls s).map Event.half } := by
  rw [configured_of_wf hwf, driveAll_eq, hl]

/-- Settles O44: for each word the half-cells driven are those of its encoding. -/
theorem lineWordsDriveTheLine : Obligations.LineWordsDriveTheLine := by
  intro s v hwf
  refine ⟨configured_driveAll (fun _ => manchBit true) hwf rfl, configured_driveAll (fun _ => manchBit false) hwf rfl,
    ?msb, ?lsb, ?ser⟩
  case msb =>
    have henc : (encode s.cfg (.manchByteMsb v)).2 = manchByte true v := (manchByte_eq_pairCells true v).symm
    rw [henc]
    exact configured_driveAll (fun _ => manchByte true v) hwf (getLastD_append_manchByte [] true v _)
  case lsb =>
    have henc : (encode s.cfg (.manchByteLsb v)).2 = manchByte false v := (manchByte_eq_pairCells false v).symm
    rw [henc]
    exact configured_driveAll (fun _ => manchByte false v) hwf (getLastD_append_manchByte [] false v _)
  case ser => exact configured_driveAll (fun s => serialByte s.cfg.serStartLevel v) hwf rfl

theorem crcHigh_eq (crc : BitVec 16) : crcHigh crc = (crc >>> 8).setWidth 8 := by
  ext j hj
  simp [crcHigh]

theorem crcLow_eq (crc : BitVec 16) : crcLow crc = crc.setWidth 8 := by
  ext j hj
  simp [crcLow]

/-- Settles O45: the half-cells driven are those of the three bytes, and the line is left as the last of them leaves
it. -/
theorem frameWordsDriveTheLine : Obligations.FrameWordsDriveTheLine := by
  intro s a b l p crc hwf bit
  have hlast (x y z : Byte) : (frameHalfcells s.cfg [x, y, z]).getLastD s.line = !z.getLsbD bit := by
    have hsplit : frameHalfcells s.cfg [x, y, z] = (manchByte s.cfg.manchMsbFirst x ++ manchByte s.cfg.manchMsbFirst y)
        ++ manchByte s.cfg.manchMsbFirst z := by simp [frameHalfcells]
    rw [hsplit, getLastD_append_manchByte]
  rw [← crcHigh_eq, ← crcLow_eq]
  exact ⟨configured_driveAll (fun s => frameHalfcells s.cfg [a, b, l]) hwf (hlast a b l),
    configured_driveAll (fun s => frameHalfcells s.cfg [crcHigh crc, crcLow crc, p]) hwf (hlast _ _ p)⟩

/-! ### The payload's and the store's word (R93, R99) -/

theorem exec_payloadBin_of_wf (d : Byte) (v q p e b : BitVec 32) (hwf : s.cfg.wf = true) :
    exec (.payloadBin d v q p e b) s = .next (layPayload s (payloadBytes d v q p e b)) := by
  change execPayloadBin d v q p e b s = _
  rw [execPayloadBin, configured_of_wf hwf]

theorem exec_nvF32_of_wf (u : BitVec 32) (hwf : s.cfg.wf = true) : exec (.nvF32 u) s = .next (nvWrite s u) := by
  change execNvF32 u s = _
  rw [execNvF32, configured_of_wf hwf]

/-- Settles O46: the buffer reads as the word's 21 bytes and past them as before. -/
theorem payloadWordIsLaidDown : Obligations.PayloadWordIsLaidDown := by
  intro s d v q p e b hwf
  have hlen : (payloadBytes d v q p e b).length = 21 := length_payloadBytes ..
  refine ⟨_, exec_payloadBin_of_wf d v q p e b hwf, ?device, fun f j hf hj => ?field, fun a ha => ?rest, rfl⟩
  case device => exact (payloadByte_layPayload_of_lt s (by omega)).trans (payloadBytes_zero ..)
  case field => exact (payloadByte_layPayload_of_lt s (by omega)).trans (payloadBytes_field _ _ _ _ _ _ hf hj)
  case rest => exact payloadByte_layPayload_of_le s (hlen.trans_le ha)

/-- Settles O47: the store is read through `readByte_nvWrite`, the rest through `nvWrite_frame`. -/
theorem persistedWordIsStored : Obligations.PersistedWordIsStored :=
  fun s u hwf => ⟨_, exec_nvF32_of_wf u hwf, readByte_nvWrite s u, nvWrite_frame s u⟩

/-! ### What a step runs (R231, R291) -/

/-- Settles O51: `MAIN` runs what `seq` decodes to, `ISR` its own step. -/
theorem stepRunsTheDecodedInstruction : Obligations.StepRunsTheDecodedInstruction := by
  intro s i
  refine ⟨fun hm hd => ?main, step_expiry⟩
  case main =>
    have hi : decodeSeq s.seq = i := by
      have hseq := decode_seqWord s.cfg s
      rw [seqWord, hd] at hseq
      exact (Except.ok.inj hseq).symm
    rw [step_main hm, hi, popAgenda]

end Sys2Proof.Machine

namespace Sys2Proof.Laws

open Machine

/-! ### The power-on reset (R330) -/

/-- Settles O54: the registers by their reset values, the store by what a cut-short write leaves outside its four
bytes. -/
theorem powerOnReset : Obligations.PowerOnReset := by
  intro s hm
  refine ⟨_, step_powerOn hm, rfl, rfl, rfl, rfl, rfl, rfl, rfl, rfl, rfl, rfl, rfl, rfl, ?buffer, rfl, rfl,
    fun hf => ?store, fun a ha => ?outside⟩
  case buffer => simp
  case store => simp [hf]
  case outside =>
    rw [powerOnReset_nv]
    split
    · rw [readByte_writeBytes]
      exact if_neg ha
    · rfl

end Sys2Proof.Laws
end

section
/-! What a step can do, said once: the outcomes of a step of `MAIN` as a relation between the state before and the
state after, each with the condition under which it is taken (44_scheduler.md R234), and the three moves of the
environment. What a step leaves unchanged, appends to the trace or does to the store is read off it. -/

namespace Sys2Proof.Machine

variable {q : BitVec 4} {s t : State}

/-! ### The ten codes -/

theorem seq_cases : ∀ q : BitVec 4, q.toNat ≤ 9 →
    q = Seq.bLoad ∨ q = Seq.mMeas ∨ q = Seq.mInteg ∨ q = Seq.mGate ∨ q = Seq.tBuild ∨ q = Seq.tCell
      ∨ q = Seq.tEnd ∨ q = Seq.pCheck ∨ q = Seq.sArm ∨ q = Seq.sHalt := by
  decide

theorem decodeSeq_mem_mainInstrs : ∀ q : BitVec 4, q.toNat ≤ 9 → decodeSeq q ∈ mainInstrs := by decide

/-- A code that answers a next state is one of the ten, in a ready state. -/
theorem ready_of_exec_decodeSeq (h : exec (decodeSeq q) s = .next t) : q.toNat ≤ 9 ∧ Ready s := by
  rcases Nat.lt_or_ge 9 q.toNat with hq | hq
  · rw [exec_decodeSeq_of_ten_le hq] at h
    cases h
  · obtain ⟨k, hk⟩ := exec_eq_onMain (decodeSeq_mem_mainInstrs q hq)
    rw [hk] at h
    exact ⟨hq, (next_of_onMain h).1⟩

/-- `T_CELL` in the closed form of its position (R182). -/
theorem exec_tCell_closed {v : Byte} (hr : Ready s) (hv : frameByte s s.txIdx.toNat = some v) :
    exec .tCell s = .next { s with
      line := cellLevel s.cfg v s.txBit.toNat s.txHalf
      trace := s.trace ++ [.half (cellLevel s.cfg v s.txBit.toNat s.txHalf)]
      txHalf := !s.txHalf
      txBit := if s.txHalf = true then (if s.txBit.toNat + 1 = cells s.cfg then 0#4 else s.txBit + 1#4) else s.txBit
      txIdx := if s.txHalf = true ∧ s.txBit.toNat + 1 = cells s.cfg ∧ ¬ s.txIdx.toNat + 1 = flen s
        then s.txIdx + 1#10 else s.txIdx
      seq := if s.txHalf = true ∧ s.txBit.toNat + 1 = cells s.cfg ∧ s.txIdx.toNat + 1 = flen s
        then Seq.tEnd else s.seq } :=
  halfCellStep s v hr hv

theorem exec_tCell_of_no_byte (hr : Ready s) (hv : frameByte s s.txIdx.toNat = none) :
    exec .tCell s = .fault .noSuchPayloadByte := by
  change execTCell s = _
  simp only [execTCell, onMain_of_ready hr, hv]

/-! ### The outcomes of a step of `MAIN` -/

/-- A step of `MAIN` from a ready state: the code it runs, the condition of its outcome, the state after. -/
inductive MainStep (s : State) : State → Prop
  | loaded (hq : s.seq = Seq.bLoad) (hn : answered s.nvIn = true) (ht : answered s.nowIn = true) :
    MainStep s { s with
      acc := loadValue (answerOr (storeAnswer s) s.nvIn)
      wm := loadValue (answerOr (storeAnswer s) s.nvIn)
      lastTs := answerOr (Config.freeNow s.draws) s.nowIn
      seq := Seq.mMeas
      trace := s.trace ++ [.nvRd s.cfg.nvOffset 4]
      nvIn := s.nvIn.tail
      nowIn := s.nowIn.tail
      draws := s.draws + 1 }
  | loadWaits (hq : s.seq = Seq.bLoad) (hw : ¬ (answered s.nvIn = true ∧ answered s.nowIn = true)) :
    MainStep s { s with nvIn := skipUnanswered s.nvIn, nowIn := skipUnanswered s.nowIn }
  | measured (hq : s.seq = Seq.mMeas) (ha : answered s.measIn = true) :
    MainStep s { s with
      vrms := (answerOr (Config.freeMeas s.draws) s.measIn).vrms
      irms := (answerOr (Config.freeMeas s.draws) s.measIn).irms
      vbat := (answerOr (Config.freeMeas s.draws) s.measIn).vbat
      seq := Seq.mInteg
      trace := s.trace ++ [.measReq]
      measIn := s.measIn.tail
      draws := s.draws + 1 }
  | measWaits (hq : s.seq = Seq.mMeas) (hw : answered s.measIn = false) :
    MainStep s { s with measIn := skipUnanswered s.measIn }
  | integrates (hq : s.seq = Seq.mInteg) (ha : answered s.nowIn = true) :
    MainStep s { s with
      power := fmul s.vrms s.irms
      acc := integrated s (fmul s.vrms s.irms) (answerOr (Config.freeNow s.draws) s.nowIn)
      lastTs := answerOr (Config.freeNow s.draws) s.nowIn
      seq := Seq.mGate
      nowIn := s.nowIn.tail
      draws := s.draws + 1 }
  | integWaits (hq : s.seq = Seq.mInteg) (hw : answered s.nowIn = false) :
    MainStep s { s with nowIn := skipUnanswered s.nowIn }
  | gateShut (hq : s.seq = Seq.mGate) (hu : undervolted s = true) :
    MainStep s { s with uv := true, trace := s.trace ++ [.diag 2], sleepCnt := 0#8, seq := Seq.sArm }
  | gateOpen (hq : s.seq = Seq.mGate) (hu : undervolted s = false) :
    MainStep s { s with uv := false, seq := Seq.tBuild }
  | built (hq : s.seq = Seq.tBuild) :
    MainStep s { layPayload s (builtPayload s) with
      crcReg := crc16 (builtPayload s)
      txRep := 0#8
      txIdx := 0#10
      txBit := 0#4
      txHalf := false
      seq := Seq.tCell }
  | cellSent (hq : s.seq = Seq.tCell) (v : Byte) (hv : frameByte s s.txIdx.toNat = some v) :
    MainStep s { s with
      line := cellLevel s.cfg v s.txBit.toNat s.txHalf
      trace := s.trace ++ [.half (cellLevel s.cfg v s.txBit.toNat s.txHalf)]
      txHalf := !s.txHalf
      txBit := if s.txHalf = true then (if s.txBit.toNat + 1 = cells s.cfg then 0#4 else s.txBit + 1#4) else s.txBit
      txIdx := if s.txHalf = true ∧ s.txBit.toNat + 1 = cells s.cfg ∧ ¬ s.txIdx.toNat + 1 = flen s
        then s.txIdx + 1#10 else s.txIdx
      seq := if s.txHalf = true ∧ s.txBit.toNat + 1 = cells s.cfg ∧ s.txIdx.toNat + 1 = flen s
        then Seq.tEnd else s.seq }
  | nextCopy (hq : s.seq = Seq.tEnd) (hc : s.txRep.toNat + 1 < s.cfg.copies) :
    MainStep s { s with
      line := false
      trace := s.trace ++ [.idle, .guard]
      txIdx := 0#10
      txBit := 0#4
      txHalf := false
      txRep := s.txRep + 1#8
      seq := Seq.tCell }
  | lastCopy (hq : s.seq = Seq.tEnd) (hc : s.cfg.copies ≤ s.txRep.toNat + 1) :
    MainStep s { s with
      line := false
      trace := s.trace ++ [.idle]
      txIdx := 0#10
      txBit := 0#4
      txHalf := false
      txRep := 0#8
      seq := Seq.pCheck }
  | persisted (hq : s.seq = Seq.pCheck) (hd : drifted s = true) :
    MainStep s { nvWrite s s.acc with wm := s.acc, didWrite := true, sleepCnt := 0#8, seq := Seq.sArm }
  | notPersisted (hq : s.seq = Seq.pCheck) (hd : drifted s = false) :
    MainStep s { s with didWrite := false, sleepCnt := 0#8, seq := Seq.sArm }
  | armed (hq : s.seq = Seq.sArm) :
    MainStep s { s with
      wakeFlag := false, trace := s.trace ++ [.armTimer, .halt], halted := true, seq := Seq.sHalt }
  | woken (hq : s.seq = Seq.sHalt) (hf : s.wakeFlag = true) :
    MainStep s { s with
      halted := false
      trace := s.trace ++ [.wake]
      sleepCnt := s.sleepCnt + 1#8
      seq := if s.sleepCnt.toNat + 1 < s.cfg.sleepIntervals then Seq.sArm else Seq.mMeas }
  | sleepsOn (hq : s.seq = Seq.sHalt) (hf : s.wakeFlag = false) : MainStep s s

/-- The relation holds of what the model answers. -/
theorem mainStep_of_exec (h : exec (decodeSeq s.seq) s = .next t) : MainStep s t := by
  obtain ⟨hle, hr⟩ := ready_of_exec_decodeSeq h
  rcases seq_cases s.seq hle with hq | hq | hq | hq | hq | hq | hq | hq | hq | hq <;> rw [hq] at h
  · change exec .bLoad s = _ at h
    by_cases ha : answered s.nvIn = true ∧ answered s.nowIn = true
    · rw [exec_bLoad_of_answered hr ha.1 ha.2] at h
      cases h
      exact .loaded hq ha.1 ha.2
    · rw [exec_bLoad_of_unanswered hr ha] at h
      cases h
      exact .loadWaits hq ha
  · change exec .mMeas s = _ at h
    cases ha : answered s.measIn with
    | true =>
      rw [exec_mMeas_of_answered hr ha] at h
      cases h
      exact .measured hq ha
    | false =>
      rw [exec_mMeas_of_unanswered hr ha] at h
      cases h
      exact .measWaits hq ha
  · change exec .mInteg s = _ at h
    cases ha : answered s.nowIn with
    | true =>
      rw [exec_mInteg_of_answered hr ha] at h
      cases h
      exact .integrates hq ha
    | false =>
      rw [exec_mInteg_of_unanswered hr ha] at h
      cases h
      exact .integWaits hq ha
  · change exec .mGate s = _ at h
    cases hu : undervolted s with
    | true =>
      rw [exec_mGate_of_undervolted hr hu] at h
      cases h
      exact .gateShut hq hu
    | false =>
      rw [exec_mGate_of_not_undervolted hr hu] at h
      cases h
      exact .gateOpen hq hu
  · change exec .tBuild s = _ at h
    rw [exec_tBuild_of_ready hr] at h
    cases h
    exact .built hq
  · change exec .tCell s = _ at h
    cases hv : frameByte s s.txIdx.toNat with
    | some v =>
      rw [exec_tCell_closed hr hv] at h
      cases h
      exact .cellSent hq v hv
    | none =>
      rw [exec_tCell_of_no_byte hr hv] at h
      cases h
  · change exec .tEnd s = _ at h
    rcases Nat.lt_or_ge (s.txRep.toNat + 1) s.cfg.copies with hc | hc
    · rw [exec_tEnd_further_copy hr hc] at h
      cases h
      exact .nextCopy hq hc
    · rw [exec_tEnd_last_copy hr hc] at h
      cases h
      exact .lastCopy hq hc
  · change exec .pCheck s = _ at h
    cases hd : drifted s with
    | true =>
      rw [exec_pCheck_of_drifted hr hd] at h
      cases h
      exact .persisted hq hd
    | false =>
      rw [exec_pCheck_of_not_drifted hr hd] at h
      cases h
      exact .notPersisted hq hd
  · change exec .sArm s = _ at h
    rw [exec_sArm_of_ready hr] at h
    cases h
    exact .armed hq
  · change exec .sHalt s = _ at h
    cases hf : s.wakeFlag with
    | true =>
      rw [exec_sHalt_of_wakeFlag hr hf] at h
      cases h
      exact .woken hq hf
    | false =>
      rw [exec_sHalt_of_not_wakeFlag hr hf] at h
      cases h
      exact .sleepsOn hq hf

theorem eq_takeExpiry_of_exec_isr (h : exec .isr s = .next t) : s.cfg.wf = true ∧ t = takeExpiry s := by
  change execIsr s = _ at h
  rw [execIsr] at h
  obtain ⟨hwf, h⟩ := next_of_configured h
  cases h
  exact ⟨hwf, rfl⟩

/-- What a step that answers a next state has done. -/
theorem step_cases (h : step s = .next t) :
    (nextMove s = .main ∧ s.seq.toNat ≤ 9 ∧ Ready (popAgenda s) ∧ MainStep (popAgenda s) t)
      ∨ (nextMove s = .expiry ∧ s.cfg.wf = true ∧ t = takeExpiry (popAgenda s))
      ∨ (nextMove s = .powerOn ∧ t = powerOnReset (popAgenda s))
      ∨ (nextMove s = .nvDone ∧ t = nvComplete (popAgenda s)) := by
  cases hm : nextMove s with
  | main =>
    rw [step_main hm] at h
    obtain ⟨hle, hr⟩ := ready_of_exec_decodeSeq h
    exact .inl ⟨rfl, hle, hr, mainStep_of_exec h⟩
  | expiry =>
    rw [step_expiry hm] at h
    obtain ⟨hwf, rfl⟩ := eq_takeExpiry_of_exec_isr h
    exact .inr (.inl ⟨rfl, hwf, rfl⟩)
  | powerOn =>
    rw [step_powerOn hm] at h
    cases h
    exact .inr (.inr (.inl ⟨rfl, rfl⟩))
  | nvDone =>
    rw [step_nvDone hm] at h
    cases h
    exact .inr (.inr (.inr ⟨rfl, rfl⟩))

/-! ### The transition relation of `seq` (R234) -/

/-- The table's row of each code. -/
theorem seq_of_mainStep (h : MainStep s t) :
    (s.seq = 0x0#4 → t.seq = if answered s.nvIn = true ∧ answered s.nowIn = true then 0x1#4 else 0x0#4)
      ∧ (s.seq = 0x1#4 → t.seq = if answered s.measIn = true then 0x2#4 else 0x1#4)
      ∧ (s.seq = 0x2#4 → t.seq = if answered s.nowIn = true then 0x3#4 else 0x2#4)
      ∧ (s.seq = 0x3#4 → t.seq = if flt s.vbat s.cfg.vbatFloor = true then 0x8#4 else 0x4#4)
      ∧ (s.seq = 0x4#4 → t.seq = 0x5#4)
      ∧ (s.seq = 0x5#4 → t.seq =
          if s.txHalf = true ∧ s.txBit.toNat + 1 = cells s.cfg ∧ s.txIdx.toNat + 1 = flen s
          then 0x6#4 else 0x5#4)
      ∧ (s.seq = 0x6#4 → t.seq = if s.txRep.toNat + 1 < s.cfg.copies then 0x5#4 else 0x7#4)
      ∧ (s.seq = 0x7#4 → t.seq = 0x8#4)
      ∧ (s.seq = 0x8#4 → t.seq = 0x9#4)
      ∧ (s.seq = 0x9#4 → t.seq =
          if s.wakeFlag = true then
            (if s.sleepCnt.toNat + 1 < s.cfg.sleepIntervals then 0x8#4 else 0x1#4)
          else 0x9#4) := by
  cases h with
  | loaded hq hn ht => simp [hq, hn, ht]
  | loadWaits hq hw => simp only [hq, if_neg hw]; simp
  | measured hq ha => simp [hq, ha]
  | measWaits hq hw => simp [hq, hw]
  | integrates hq ha => simp [hq, ha]
  | integWaits hq hw => simp [hq, hw]
  | gateShut hq hu =>
    rw [undervolted] at hu
    simp [hq, hu]
  | gateOpen hq hu =>
    rw [undervolted] at hu
    simp [hq, hu]
  | built hq => simp [hq]
  | cellSent hq v hv => simp [hq]
  | nextCopy hq hc => simp [hq, hc]
  | lastCopy hq hc => simp [hq, Nat.not_lt.mpr hc]
  | persisted hq hd => simp [hq]
  | notPersisted hq hd => simp [hq]
  | armed hq => simp [hq]
  | woken hq hf => simp [hq, hf]
  | sleepsOn hq hf => simp [hq, hf]

/-- Settles O52: taking the move off the agenda touches nothing that the rows of `seq_of_mainStep` read. -/
theorem sequencerTransitions : Obligations.SequencerTransitions := by
  intro s t h
  obtain ⟨hm, hle, -, hstep⟩ | ⟨hm, -, rfl⟩ | ⟨hm, rfl⟩ | ⟨hm, rfl⟩ := step_cases h
  · obtain ⟨h0, h1, h2, h3, h4, h5, h6, h7, h8, h9⟩ := seq_of_mainStep hstep
    exact ⟨fun _ => ⟨h0, h1, h2, h3, h4, h5, h6, h7, h8, h9, hle⟩, by simp [hm], by simp [hm]⟩
  · exact ⟨by simp [hm], fun _ => rfl, by simp [hm]⟩
  · exact ⟨by simp [hm], by simp [hm], fun _ => rfl⟩
  · exact ⟨by simp [hm], fun _ => rfl, by simp [hm]⟩

/-! ### Who writes which register (R23 to R34) -/

theorem writers_of_mainStep (h : MainStep s t) :
    (t.acc ≠ s.acc → s.seq = 0x0#4 ∨ s.seq = 0x2#4)
      ∧ (t.wm ≠ s.wm → s.seq = 0x0#4 ∨ s.seq = 0x7#4)
      ∧ (t.lastTs ≠ s.lastTs → s.seq = 0x0#4 ∨ s.seq = 0x2#4)
      ∧ (t.vrms ≠ s.vrms ∨ t.irms ≠ s.irms ∨ t.vbat ≠ s.vbat → s.seq = 0x1#4)
      ∧ (t.power ≠ s.power → s.seq = 0x2#4)
      ∧ (t.pbuf ≠ s.pbuf ∨ t.plen ≠ s.plen ∨ t.crcReg ≠ s.crcReg → s.seq = 0x4#4)
      ∧ (t.txRep ≠ s.txRep → s.seq = 0x4#4 ∨ s.seq = 0x6#4)
      ∧ (t.txIdx ≠ s.txIdx ∨ t.txBit ≠ s.txBit ∨ t.txHalf ≠ s.txHalf →
          s.seq = 0x4#4 ∨ s.seq = 0x5#4 ∨ s.seq = 0x6#4)
      ∧ (t.line ≠ s.line → s.seq = 0x5#4 ∨ s.seq = 0x6#4)
      ∧ (t.sleepCnt ≠ s.sleepCnt → s.seq = 0x3#4 ∨ s.seq = 0x7#4 ∨ s.seq = 0x9#4)
      ∧ (t.uv ≠ s.uv → s.seq = 0x3#4)
      ∧ (t.didWrite ≠ s.didWrite → s.seq = 0x7#4)
      ∧ (t.halted ≠ s.halted → s.seq = 0x8#4 ∨ s.seq = 0x9#4)
      ∧ (t.wakeFlag ≠ s.wakeFlag → s.seq = 0x8#4 ∧ t.wakeFlag = false) := by
  cases h with
  | loaded hq | loadWaits hq | measured hq | measWaits hq | integrates hq | integWaits hq | gateShut hq | gateOpen hq
  | built hq | cellSent hq | nextCopy hq | lastCopy hq | persisted hq | notPersisted hq | armed hq | woken hq
  | sleepsOn hq =>
    simp [hq]

theorem cfg_of_mainStep (h : MainStep s t) : t.cfg = s.cfg := by
  cases h <;> rfl

theorem cfg_of_step (h : step s = .next t) : t.cfg = s.cfg := by
  obtain ⟨-, -, -, hstep⟩ | ⟨-, -, rfl⟩ | ⟨-, rfl⟩ | ⟨-, rfl⟩ := step_cases h
  · exact cfg_of_mainStep (s := popAgenda s) hstep
  · rfl
  · rfl
  · rfl

/-- Settles O53. -/
theorem registersHaveTheirWritersOnly : Obligations.RegistersHaveTheirWritersOnly := by
  intro s t h
  refine ⟨fun hm => ?main, fun hm => ?expiry, cfg_of_step h⟩
  case main =>
    rw [step_main hm] at h
    have hwriters := writers_of_mainStep (mainStep_of_exec (s := popAgenda s) h)
    exact hwriters
  case expiry =>
    rw [step_expiry hm] at h
    exact (eq_takeExpiry_of_exec_isr h).2

/-! ### What is appended to the trace (R12, R70) -/

/-- The events of a step from a state at code `q` may stand in the list `es` (the state after has `did_write` as
given). -/
def EventsOf (q : BitVec 4) (wrote : Bool) (es : List Event) : Prop :=
  (∀ l, Event.half l ∈ es → q = 0x5#4)
    ∧ (Event.guard ∈ es ∨ Event.idle ∈ es → q = 0x6#4)
    ∧ (∀ c, Event.diag c ∈ es → c = 2 ∧ q = 0x3#4)
    ∧ (∀ o b0 b1 b2 b3, Event.nvWr o b0 b1 b2 b3 ∈ es → q = 0x7#4 ∧ wrote = true)

theorem eventsOf_nil (q : BitVec 4) (w : Bool) : EventsOf q w [] := by simp [EventsOf]

theorem trace_of_mainStep (h : MainStep s t) :
    ∃ es, t.trace = s.trace ++ es ∧ es.length ≤ 2 ∧ EventsOf s.seq t.didWrite es := by
  cases h with
  | loadWaits | measWaits | integrates | integWaits | gateOpen | built | notPersisted | sleepsOn =>
    exact ⟨[], (List.append_nil _).symm, by decide, eventsOf_nil ..⟩
  | loaded hq | measured hq | gateShut hq | cellSent hq | nextCopy hq | lastCopy hq | persisted hq | armed hq
  | woken hq =>
    exact ⟨_, rfl, by simp, by simp [EventsOf, hq]⟩

/-- Settles O58. -/
theorem traceOnlyGrows : Obligations.TraceOnlyGrows := by
  intro s t h
  obtain ⟨hm, -, -, hstep⟩ | ⟨hm, -, rfl⟩ | ⟨hm, rfl⟩ | ⟨hm, rfl⟩ := step_cases h
  · obtain ⟨es, htr, hlen, hes⟩ := trace_of_mainStep hstep
    exact ⟨es, htr, hlen, fun hne => absurd hm hne, hes⟩
  all_goals exact ⟨[], (List.append_nil _).symm, by decide, fun _ => rfl, eventsOf_nil s.seq _⟩

/-! ### What is done to the store (R206) -/

theorem nv_of_mainStep (h : MainStep s t) :
    t.nv = s.nv ∨ (s.seq = Seq.pCheck ∧ drifted s = true ∧ t.nv = (nvWrite s s.acc).nv) := by
  cases h with
  | persisted hq hd => exact .inr ⟨hq, hd, rfl⟩
  | _ => exact .inl rfl

/-- Settles O32: `nvWrite` and the bytes of a write cut short both stay within the four offsets. -/
theorem storeIsTouchedByPersistAlone : Obligations.StoreIsTouchedByPersistAlone := by
  intro s t a h hne
  obtain ⟨hm, -, -, hstep⟩ | ⟨-, -, rfl⟩ | ⟨hm, rfl⟩ | ⟨-, rfl⟩ := step_cases h
  · obtain hnv | ⟨hq, hd, hnv⟩ := nv_of_mainStep hstep
    · exact absurd (congrArg (readByte · a) hnv) hne
    · rw [hnv, readByte_nvWrite] at hne
      have ha : s.cfg.nvOffset ≤ a ∧ a < s.cfg.nvOffset + 4 := by
        by_contra ha
        exact hne (if_neg ha)
      exact ⟨ha.1, ha.2, .inl ⟨hm, hq, hd⟩⟩
  · exact absurd rfl hne
  · rw [powerOnReset_nv] at hne
    split at hne
    next hf =>
      rw [readByte_writeBytes] at hne
      have ha : s.cfg.nvOffset ≤ a ∧ a < s.cfg.nvOffset + 4 := by
        by_contra ha
        exact hne (if_neg ha)
      exact ⟨ha.1, ha.2, .inr ⟨hm, hf⟩⟩
    next => exact absurd rfl hne
  · exact absurd rfl hne

end Sys2Proof.Machine
end

section
/-! The ranges of the accumulator (10_state.md R25): what `load` accepts (43_energy_store.md R200, R202), and that
neither it nor `integrate` (40_measurement.md R136) gives a value that is not finite. -/

namespace Sys2Proof.Machine

variable {a b u : F32} {s t : State}

/-! ### The order of the patterns -/

theorem sign_eq_decide (x : F32) : sign x = decide (2 ^ 31 ≤ x.toNat) := by
  have hmsb := BitVec.msb_eq_decide x
  rwa [BitVec.msb_eq_getLsbD_last] at hmsb

theorem isnan_eq_false_iff : isnan a = false ↔ mag a ≤ 0x7F800000 := by
  simp [isnan]

theorem isnan_of_isfinite (h : isfinite a = true) : isnan a = false := by
  have hlt : mag a < infMag := of_decide_eq_true h
  exact decide_eq_false (Nat.lt_asymm hlt)

theorem isinf_of_isfinite (h : isfinite a = true) : isinf a = false := by
  have hlt : mag a < infMag := of_decide_eq_true h
  exact decide_eq_false (Nat.ne_of_lt hlt)

theorem fge_iff : fge a b = true ↔ isnan a = false ∧ isnan b = false ∧ key b ≤ key a := by
  simp [fge, and_assoc]

theorem fle_iff : fle a b = true ↔ isnan a = false ∧ isnan b = false ∧ key a ≤ key b := by
  simp [fle, and_assoc]

/-- The patterns within [0, `ACC_MAX`]: those from +0.0 to it, and -0.0 (R202). -/
theorem inRange_iff : (fge u 0x00000000#32 = true ∧ fle u Config.accMax = true) ↔
    u.toNat ≤ 0x49742400 ∨ u = 0x80000000#32 := by
  have hzero : key 0x00000000#32 = 0 := by decide
  have hmax : key Config.accMax = 0x49742400 := by decide
  have hn0 : isnan 0x00000000#32 = false := by decide
  have hnm : isnan Config.accMax = false := by decide
  have hu : u.toNat < 2 ^ 32 := u.isLt
  have hneg : u = 0x80000000#32 ↔ u.toNat = 2 ^ 31 := BitVec.toNat_inj.symm
  rw [fge_iff, fle_iff, hzero, hmax, hneg, hn0, hnm]
  simp only [isnan_eq_false_iff, key, sign_eq_decide, mag, decide_eq_true_eq, true_and]
  split <;> omega

theorem isfinite_of_inRange (h : fge u 0x00000000#32 = true ∧ fle u Config.accMax = true) : isfinite u = true := by
  apply decide_eq_true
  rcases inRange_iff.mp h with hu | rfl
  · exact lt_of_le_of_lt ((Nat.mod_le ..).trans hu) (by decide)
  · decide

/-! ### `load` -/

theorem loadValid_iff {r : NvResp} : loadValid r = true ↔
    r.present = true ∧ fge (respPattern r) 0x00000000#32 = true ∧ fle (respPattern r) Config.accMax = true := by
  simp [loadValid, and_assoc]

/-- Settles O4. -/
theorem loadAcceptsExactlyTheRange : Obligations.LoadAcceptsExactlyTheRange := by
  intro b0 b1 b2 b3
  rw [loadValid_iff, ← leWord_eq_append]
  exact (and_iff_right rfl).trans inRange_iff

theorem loadValue_inRange (r : NvResp) :
    fge (loadValue r) 0x00000000#32 = true ∧ fle (loadValue r) Config.accMax = true := by
  unfold loadValue
  split
  next h => exact (loadValid_iff.mp h).2
  next => decide

/-- Settles O3: the accumulator is `loadValue` of the answer, whatever that is. -/
theorem loadedAccumulatorIsInRange : Obligations.LoadedAccumulatorIsInRange := by
  intro s t hn ht h
  obtain ⟨-, hr⟩ := ready_of_exec_decodeSeq (q := Seq.bLoad) h
  rw [exec_bLoad_of_answered hr hn ht] at h
  cases h
  have hv := loadValue_inRange (answerOr (storeAnswer s) s.nvIn)
  have hge : fle 0x00000000#32 (loadValue (answerOr (storeAnswer s) s.nvIn)) = true := by
    obtain ⟨hnan, hnan0, hkey⟩ := fge_iff.mp hv.1
    exact fle_iff.mpr ⟨hnan0, hnan, hkey⟩
  exact ⟨isfinite_of_inRange hv, hge, hv.2, rfl⟩

/-! ### `integrate` -/

/-- A sum that is not finite is dropped (R136). -/
theorem isfinite_integrated (p : F32) (now : Stamp) (h : isfinite s.acc = true) :
    isfinite (integrated s p now) = true := by
  unfold integrated
  split
  next hsum => exact hsum
  next => exact h

theorem ready_of_exec_mInteg (h : exec .mInteg s = .next t) : Ready s :=
  (ready_of_exec_decodeSeq (q := Seq.mInteg) h).2

/-- Settles O7: an answered step integrates, an unanswered one leaves the accumulator. -/
theorem integrationKeepsAccumulatorFinite : Obligations.IntegrationKeepsAccumulatorFinite := by
  intro s t hacc h
  have hr := ready_of_exec_mInteg h
  cases ha : answered s.nowIn with
  | true =>
    rw [exec_mInteg_of_answered hr ha] at h
    cases h
    exact isfinite_integrated _ _ hacc
  | false =>
    rw [exec_mInteg_of_unanswered hr ha] at h
    cases h
    exact hacc

end Sys2Proof.Machine
end

section
/-! The invariant (10_state.md, 42_transmitter.md §3, 70_reset_and_hazards.md §3): it holds after reset, every step
keeps it, and from a state that meets it the model's step answers a next state. -/

namespace Sys2Proof.Machine

variable {q : BitVec 4} {s t : State}

/-! ### The ranges of the counters -/

theorem flen_pos (s : State) : 0 < flen s := by
  unfold flen
  split <;> omega

theorem cells_pos (c : Cfg) : 0 < cells c := by
  unfold cells
  split <;> omega

theorem cells_le_ten (c : Cfg) : cells c ≤ 10 := by
  unfold cells
  split <;> omega

theorem flen_le (hwf : s.cfg.wf = true) : flen s ≤ 516 := by
  obtain ⟨-, -, -, -, -, -, hk⟩ := wf_bounds hwf
  have hn : s.plen.toNat < 256 := s.plen.isLt
  unfold flen
  split <;> omega

/-- A counter that is below its bound can be counted up without a carry. -/
theorem toNat_add_one {w : Nat} {x : BitVec w} (h : x.toNat + 1 < 2 ^ w) : (x + 1#w).toNat = x.toNat + 1 := by
  have hw : 1 < 2 ^ w := by omega
  rw [BitVec.toNat_add, BitVec.toNat_ofNat, Nat.mod_eq_of_lt hw, Nat.mod_eq_of_lt h]

/-! ### After reset (R39, R330) -/

/-- The registers at their reset values meet the invariant, whatever a canonical store, the trace and the environment
are. -/
theorem inv_of_reset_registers {c : Cfg} (hwf : c.wf = true) {nv : Mem} (hnv : memWf nv = true) (tr : List Event)
    (ag : List Move) (nvIn : List (Option NvResp)) (nowIn : List (Option Stamp)) (measIn : List (Option MeasResp))
    (n : Nat) :
    Inv { State.resetWith c with
      nv := nv, trace := tr, agenda := ag, nvIn := nvIn, nowIn := nowIn, measIn := measIn, draws := n } := by
  obtain ⟨hcopies, -⟩ := wf_bounds hwf
  exact {
    cfgWf := hwf
    seqLegal := show Seq.bLoad.toNat ≤ 9 by decide
    inRange := countersInRange_iff.mpr ⟨cells_pos c, flen_pos _, hcopies, Nat.zero_le _, Nat.zero_le _⟩
    haltedIff := by simp [State.resetWith]
    lineIdle := by simp [State.resetWith]
    positionIdle := fun _ => ⟨rfl, rfl, rfl, rfl⟩
    copyEnded := by simp [State.resetWith]
    intervalOpen := by simp [State.resetWith]
    accFinite := show isfinite 0#32 = true by decide
    wmFinite := show isfinite 0#32 = true by decide
    plenLegal := .inl rfl
    bufferWhole := length_resetWith_pbuf c
    frameBuilt := by simp [State.resetWith]
    nvCanonical := hnv }

theorem inv_resetWith {c : Cfg} (hwf : c.wf = true) : Inv (State.resetWith c) :=
  inv_of_reset_registers hwf memWf_nil [] [] [] [] [] 0

/-- Settles O55. -/
theorem resetMeetsTheInvariant : Obligations.ResetMeetsTheInvariant :=
  ⟨inv_resetWith (by decide), fun _ => inv_resetWith⟩

theorem inv_powerOnReset (hi : Inv s) : Inv (powerOnReset s) := by
  have hnv : memWf (powerOnReset s).nv = true := by
    rw [powerOnReset_nv]
    split
    · exact memWf_writeBytes _ _ _ hi.nvCanonical
    · exact hi.nvCanonical
  exact inv_of_reset_registers hi.cfgWf hnv _ _ _ _ _ _

/-! ### What the invariant says of a code -/

/-- The codes outside the sending of a frame and outside Sleeping. -/
abbrev quiet (q : BitVec 4) : Prop := q ≠ Seq.tCell ∧ q ≠ Seq.tEnd ∧ q ≠ Seq.sArm ∧ q ≠ Seq.sHalt

theorem not_sending_of_quiet (h : quiet s.seq) : ¬ sending s := by
  obtain ⟨hc, he, -, -⟩ := h
  rintro (hq | hq)
  · exact hc hq
  · exact he hq

theorem Inv.not_halted (hi : Inv s) (h : s.seq ≠ Seq.sHalt) : s.halted = false :=
  Bool.eq_false_iff.mpr fun hh => h (hi.haltedIff.mp hh)

theorem Inv.line_idle (hi : Inv s) (h : ¬ sending s) : s.line = false :=
  Bool.eq_false_iff.mpr fun hl => h (hi.lineIdle hl)

/-! ### The changes of code -/

/-- Between the codes outside Sending and Sleeping nothing else is asked for. -/
theorem Inv.to_quiet (hi : Inv s) (hs : quiet s.seq) (hle : q.toNat ≤ 9) (hq : quiet q) :
    Inv { s with seq := q } := by
  have hns := not_sending_of_quiet hs
  have hnt : ¬ sending { s with seq := q } := not_sending_of_quiet (s := { s with seq := q }) hq
  have hhalt := hi.not_halted hs.2.2.2
  have hline := hi.line_idle hns
  obtain ⟨-, hne, hna, hnh⟩ := hq
  exact { hi with
    seqLegal := hle
    haltedIff := by simp [hhalt, hnh]
    lineIdle := fun h => absurd (hline.symm.trans h) Bool.false_ne_true
    positionIdle := fun _ => hi.positionIdle hns
    copyEnded := fun h => absurd h hne
    intervalOpen := fun h => (h.elim hna hnh).elim
    frameBuilt := fun h => absurd h hnt }

/-- Into Sleeping with the intervals still to come. -/
theorem Inv.to_sArm (hi : Inv s) (hs : quiet s.seq) : Inv { s with sleepCnt := 0#8, seq := Seq.sArm } := by
  have hns := not_sending_of_quiet hs
  have hhalt := hi.not_halted hs.2.2.2
  have hline := hi.line_idle hns
  obtain ⟨-, -, hsleep, -⟩ := wf_bounds hi.cfgWf
  obtain ⟨hbit, hidx, hrep, -, hplen⟩ := countersInRange_iff.mp hi.inRange
  exact { hi with
    seqLegal := show Seq.sArm.toNat ≤ 9 by decide
    inRange := countersInRange_iff.mpr ⟨hbit, hidx, hrep, Nat.zero_le _, hplen⟩
    haltedIff := by simp [hhalt]
    lineIdle := fun h => absurd (hline.symm.trans h) Bool.false_ne_true
    positionIdle := fun _ => hi.positionIdle hns
    copyEnded := fun h => absurd h (by simp)
    intervalOpen := fun _ => hsleep
    frameBuilt := fun h => absurd h (by simp) }

/-- `T_BUILD` lays down what `T_CELL` sends. -/
theorem Inv.built (hi : Inv s) (hq : s.seq = Seq.tBuild) :
    Inv { layPayload s (builtPayload s) with
      crcReg := crc16 (builtPayload s), txRep := 0#8, txIdx := 0#10, txBit := 0#4, txHalf := false
      seq := Seq.tCell } := by
  have hlen := length_builtPayload s
  have hhalt := hi.not_halted (by rw [hq]; decide)
  obtain ⟨hcopies, -, -, -, hmax, -⟩ := wf_bounds hi.cfgWf
  obtain ⟨-, -, -, hcnt, -⟩ := countersInRange_iff.mp hi.inRange
  exact { hi with
    seqLegal := show Seq.tCell.toNat ≤ 9 by decide
    inRange := countersInRange_iff.mpr ⟨cells_pos _, flen_pos _, hcopies, hcnt, hmax⟩
    haltedIff := by simp [hhalt]
    lineIdle := fun _ => .inl rfl
    positionIdle := fun h => absurd (.inl rfl) h
    copyEnded := fun h => absurd h (by simp)
    intervalOpen := fun h => absurd h (by simp)
    plenLegal := .inr rfl
    bufferWhole := (length_layPayload s _ (by rw [hlen, hi.bufferWhole]; exact hmax)).trans hi.bufferWhole
    frameBuilt := fun _ =>
      ⟨builtPayload s, hlen, ⟨hlen.symm, fun i hlt => payloadByte_layPayload_of_lt s hlt⟩, rfl⟩ }

/-- One half-cell later: within the byte, at the next byte, or at the end of the copy (R182). -/
theorem Inv.advance_drive (hi : Inv s) (hq : s.seq = Seq.tCell) (l : Bool) : Inv (advance (drive s l)) := by
  obtain ⟨hbit, hidx, hrep, hcnt, hplen⟩ := countersInRange_iff.mp hi.inRange
  have hcells := cells_le_ten s.cfg
  have hflen := flen_le hi.cfgWf
  have hnotEnd : s.seq ≠ Seq.tEnd := by rw [hq]; decide
  have hhalt := hi.not_halted (by rw [hq]; decide)
  cases hh : s.txHalf with
  | false =>
    rw [advance_of_firstHalf (s := drive s l) hh]
    exact { hi with
      lineIdle := fun _ => .inl hq
      positionIdle := fun h => absurd (.inl hq) h
      copyEnded := fun h => absurd h hnotEnd }
  | true =>
    rcases Nat.lt_or_ge (s.txBit.toNat + 1) (cells s.cfg) with hb | hb
    · have hbit1 : (s.txBit + 1#4).toNat = s.txBit.toNat + 1 := toNat_add_one (by omega)
      rw [advance_within_byte (s := drive s l) hh hb]
      exact { hi with
        inRange := countersInRange_iff.mpr ⟨hbit1.trans_lt hb, hidx, hrep, hcnt, hplen⟩
        lineIdle := fun _ => .inl hq
        positionIdle := fun h => absurd (.inl hq) h
        copyEnded := fun h => absurd h hnotEnd }
    have hlast : s.txBit.toNat + 1 = cells s.cfg := by omega
    rcases Nat.lt_or_ge (s.txIdx.toNat + 1) (flen s) with hx | hx
    · have hidx1 : (s.txIdx + 1#10).toNat = s.txIdx.toNat + 1 := toNat_add_one (by omega)
      rw [advance_to_next_byte (s := drive s l) hh hlast hx]
      exact { hi with
        inRange := countersInRange_iff.mpr ⟨cells_pos _, hidx1.trans_lt hx, hrep, hcnt, hplen⟩
        lineIdle := fun _ => .inl hq
        positionIdle := fun h => absurd (.inl hq) h
        copyEnded := fun h => absurd h hnotEnd }
    · have hend : s.txIdx.toNat + 1 = flen s := by omega
      rw [advance_off_last_byte (s := drive s l) hh hlast hend]
      exact { hi with
        seqLegal := show Seq.tEnd.toNat ≤ 9 by decide
        inRange := countersInRange_iff.mpr ⟨cells_pos _, hidx, hrep, hcnt, hplen⟩
        haltedIff := by simp [hhalt]
        lineIdle := fun _ => .inr rfl
        positionIdle := fun h => absurd (.inr rfl) h
        copyEnded := fun _ => ⟨hend, rfl, rfl⟩
        intervalOpen := fun h => absurd h (by simp)
        frameBuilt := fun _ => hi.frameBuilt (.inl hq) }

/-- A further copy starts over, with the same frame (R184). -/
theorem Inv.nextCopy (hi : Inv s) (hq : s.seq = Seq.tEnd) (hc : s.txRep.toNat + 1 < s.cfg.copies) :
    Inv { s with
      line := false, trace := s.trace ++ [.idle, .guard], txIdx := 0#10, txBit := 0#4, txHalf := false
      txRep := s.txRep + 1#8, seq := Seq.tCell } := by
  obtain ⟨-, hcopies, -⟩ := wf_bounds hi.cfgWf
  obtain ⟨-, -, -, hcnt, hplen⟩ := countersInRange_iff.mp hi.inRange
  have hhalt := hi.not_halted (by rw [hq]; decide)
  have hrep1 : (s.txRep + 1#8).toNat = s.txRep.toNat + 1 := toNat_add_one (by omega)
  exact { hi with
    seqLegal := show Seq.tCell.toNat ≤ 9 by decide
    inRange := countersInRange_iff.mpr ⟨cells_pos _, flen_pos _, hrep1.trans_lt hc, hcnt, hplen⟩
    haltedIff := by simp [hhalt]
    lineIdle := fun _ => .inl rfl
    positionIdle := fun h => absurd (.inl rfl) h
    copyEnded := fun h => absurd h (by simp)
    intervalOpen := fun h => absurd h (by simp)
    frameBuilt := fun _ => hi.frameBuilt (.inr hq) }

theorem Inv.lastCopy (hi : Inv s) (hq : s.seq = Seq.tEnd) :
    Inv { s with
      line := false, trace := s.trace ++ [.idle], txIdx := 0#10, txBit := 0#4, txHalf := false, txRep := 0#8
      seq := Seq.pCheck } := by
  obtain ⟨hcopies, -⟩ := wf_bounds hi.cfgWf
  obtain ⟨-, -, -, hcnt, hplen⟩ := countersInRange_iff.mp hi.inRange
  have hhalt := hi.not_halted (by rw [hq]; decide)
  exact { hi with
    seqLegal := show Seq.pCheck.toNat ≤ 9 by decide
    inRange := countersInRange_iff.mpr ⟨cells_pos _, flen_pos _, hcopies, hcnt, hplen⟩
    haltedIff := by simp [hhalt]
    lineIdle := fun h => absurd h Bool.false_ne_true
    positionIdle := fun _ => ⟨rfl, rfl, rfl, rfl⟩
    copyEnded := fun h => absurd h (by simp)
    intervalOpen := fun h => absurd h (by simp)
    frameBuilt := fun h => absurd h (by simp) }

theorem Inv.armed (hi : Inv s) (hq : s.seq = Seq.sArm) :
    Inv { s with
      wakeFlag := false, trace := s.trace ++ [.armTimer, .halt], halted := true, seq := Seq.sHalt } := by
  have hns : ¬ sending s := by rw [sending, hq]; decide
  have hline := hi.line_idle hns
  exact { hi with
    seqLegal := show Seq.sHalt.toNat ≤ 9 by decide
    haltedIff := by simp
    lineIdle := fun h => absurd (hline.symm.trans h) Bool.false_ne_true
    positionIdle := fun _ => hi.positionIdle hns
    copyEnded := fun h => absurd h (by simp)
    intervalOpen := fun _ => hi.intervalOpen (.inl hq)
    frameBuilt := fun h => absurd h (by simp) }

/-- The interval just slept is counted; `S_ARM` may follow only where one is still to come (R230). -/
theorem Inv.woken_to (hi : Inv s) (hs : s.seq = Seq.sHalt) (hle : q.toNat ≤ 9)
    (hq : q ≠ Seq.tCell ∧ q ≠ Seq.tEnd ∧ q ≠ Seq.sHalt)
    (hmore : q = Seq.sArm → s.sleepCnt.toNat + 1 < s.cfg.sleepIntervals) :
    Inv { s with halted := false, trace := s.trace ++ [.wake], sleepCnt := s.sleepCnt + 1#8, seq := q } := by
  have hns : ¬ sending s := by rw [sending, hs]; decide
  have hline := hi.line_idle hns
  have hopen := hi.intervalOpen (.inr hs)
  obtain ⟨-, -, -, hsleep, -⟩ := wf_bounds hi.cfgWf
  obtain ⟨hbit, hidx, hrep, -, hplen⟩ := countersInRange_iff.mp hi.inRange
  have hcount : (s.sleepCnt + 1#8).toNat = s.sleepCnt.toNat + 1 := toNat_add_one (by omega)
  obtain ⟨hcell, hend, hhalt⟩ := hq
  exact { hi with
    seqLegal := hle
    inRange := countersInRange_iff.mpr ⟨hbit, hidx, hrep, hcount.trans_le hopen, hplen⟩
    haltedIff := by simp [hhalt]
    lineIdle := fun h => absurd (hline.symm.trans h) Bool.false_ne_true
    positionIdle := fun _ => hi.positionIdle hns
    copyEnded := fun h => absurd h hend
    intervalOpen := fun h => hcount.trans_lt (hmore (h.resolve_right hhalt))
    frameBuilt := fun h => (h.elim hcell hend).elim }

theorem Inv.woken (hi : Inv s) (hq : s.seq = Seq.sHalt) :
    Inv { s with
      halted := false, trace := s.trace ++ [.wake], sleepCnt := s.sleepCnt + 1#8
      seq := if s.sleepCnt.toNat + 1 < s.cfg.sleepIntervals then Seq.sArm else Seq.mMeas } := by
  split
  case isTrue hmore => exact hi.woken_to hq (by decide) (by decide) fun _ => hmore
  case isFalse hdone => exact hi.woken_to hq (by decide) (by decide) fun h => absurd h (by decide)

/-! ### Every step -/

theorem Inv.mainStep (hi : Inv s) (h : MainStep s t) : Inv t := by
  cases h with
  | loaded hq hn ht =>
    have hv := isfinite_of_inRange (loadValue_inRange (answerOr (storeAnswer s) s.nvIn))
    exact { hi.to_quiet (q := Seq.mMeas) (by rw [hq]; decide) (by decide) (by decide) with
      accFinite := hv, wmFinite := hv }
  | measured hq ha => exact { hi.to_quiet (q := Seq.mInteg) (by rw [hq]; decide) (by decide) (by decide) with }
  | integrates hq ha =>
    exact { hi.to_quiet (q := Seq.mGate) (by rw [hq]; decide) (by decide) (by decide) with
      accFinite := isfinite_integrated _ _ hi.accFinite }
  | gateOpen hq hu => exact { hi.to_quiet (q := Seq.tBuild) (by rw [hq]; decide) (by decide) (by decide) with }
  | gateShut hq hu => exact { hi.to_sArm (by rw [hq]; decide) with }
  | notPersisted hq hd => exact { hi.to_sArm (by rw [hq]; decide) with }
  | persisted hq hd =>
    exact { hi.to_sArm (by rw [hq]; decide) with
      wmFinite := hi.accFinite
      nvCanonical := memWf_writeBytes _ _ _ hi.nvCanonical }
  | built hq => exact hi.built hq
  | cellSent hq v hv =>
    obtain ⟨hbit, hidx, -⟩ := countersInRange_iff.mp hi.inRange
    have hadv := hi.advance_drive hq (cellLevel s.cfg v s.txBit.toNat s.txHalf)
    rw [advance_eq (s := drive s _) hbit hidx] at hadv
    exact hadv
  | nextCopy hq hc => exact hi.nextCopy hq hc
  | lastCopy hq hc => exact hi.lastCopy hq
  | armed hq => exact hi.armed hq
  | woken hq hf => exact hi.woken hq
  | loadWaits | measWaits | integWaits | sleepsOn => exact { hi with }

theorem Inv.popAgenda (hi : Inv s) : Inv (popAgenda s) := { hi with }

/-- Settles O56: the moves of `MAIN` by `Inv.mainStep`, the reset by its registers; the other two change nothing that
the invariant reads. -/
theorem stepKeepsTheInvariant : Obligations.StepKeepsTheInvariant := by
  intro s t hi h
  obtain ⟨-, -, -, hstep⟩ | ⟨-, -, rfl⟩ | ⟨-, rfl⟩ | ⟨-, rfl⟩ := step_cases h
  · exact hi.popAgenda.mainStep hstep
  · exact { hi with }
  · exact inv_powerOnReset hi.popAgenda
  · exact { hi with }

end Sys2Proof.Machine
end

section
/-! Where a step of `MAIN` has a next state, and that outside Sleeping it does not meet the interrupt (10_state.md R33,
R38; 60_exceptions.md R295). -/

namespace Sys2Proof.Machine

variable {i : Instr} {s t : State} {j : Nat}

/-! ### Where `T_CELL` has a byte to send (R33, R155) -/

theorem frameByte_of_selectsPayload (h : selectsPayload s j) : frameByte s s.txIdx.toNat = payloadByte s j := by
  obtain ⟨hj, hidx⟩ := h
  cases hp : s.cfg.profile with
  | manchFramed =>
    rw [hp] at hidx
    rw [hidx, frameByte_after_head hp, if_pos hj]
  | bitSerial =>
    rw [hp] at hidx
    simp only [frameByte, hp, hidx, if_pos hj]

/-- Every index of the frame but those of the payload has a byte whatever `pbuf` holds. -/
theorem exists_frameByte_of_not_selectsPayload (hidx : s.txIdx.toNat < flen s) (h : ∀ j, ¬ selectsPayload s j) :
    ∃ v, frameByte s s.txIdx.toNat = some v := by
  cases hp : s.cfg.profile with
  | manchFramed =>
    rw [flen_of_manchFramed hp] at hidx
    rcases Nat.lt_or_ge s.txIdx.toNat (s.cfg.k + 3) with hlt | hge
    · rw [frameByte, hp]
      have hcases : s.txIdx.toNat < s.cfg.k ∨ s.txIdx.toNat = s.cfg.k ∨ s.txIdx.toNat = s.cfg.k + 1
          ∨ s.txIdx.toNat = s.cfg.k + 2 := by omega
      rcases hcases with hi | hi | hi | hi <;> simp [hi]
    · obtain ⟨j, hj⟩ := Nat.exists_eq_add_of_le hge
      have hpast : ¬ j < s.plen.toNat := fun hlt => h j ⟨hlt, by rw [hp]; exact hj⟩
      have htail : j - s.plen.toNat < [crcHigh s.crcReg, crcLow s.crcReg, s.cfg.stopByte].length := by
        rw [List.length_cons, List.length_cons, List.length_cons, List.length_nil]
        omega
      rw [hj, frameByte_after_head hp, if_neg hpast]
      exact ⟨_, List.getElem?_eq_getElem htail⟩
  | bitSerial =>
    rw [flen_of_bitSerial hp] at hidx
    have hpast : ¬ s.txIdx.toNat < s.plen.toNat := fun hlt => h s.txIdx.toNat ⟨hlt, by rw [hp]⟩
    have hcases : s.txIdx.toNat = s.plen.toNat ∨ s.txIdx.toNat = s.plen.toNat + 1 := by omega
    rw [frameByte, hp]
    rcases hcases with hi | hi <;> simp [hi]

theorem exists_next_tCell (hr : Ready s) (h : ∃ v, frameByte s s.txIdx.toNat = some v) :
    ∃ t, exec .tCell s = .next t := by
  obtain ⟨v, hv⟩ := h
  exact ⟨_, exec_tCell_closed hr hv⟩

/-- Settles O15: a selected payload index reads `pbuf`, every other index of the frame has a byte. -/
theorem cellStopsOnlyOutsideTheBuffer : Obligations.CellStopsOnlyOutsideTheBuffer := by
  intro s hr
  obtain ⟨-, hidx, -, -, hplen⟩ := countersInRange_iff.mp hr.2
  have hinside (j : Nat) (hj : selectsPayload s j) (hlt : j < s.pbuf.length) :
      frameByte s s.txIdx.toNat = some s.pbuf[j] :=
    (frameByte_of_selectsPayload hj).trans (List.getElem?_eq_getElem hlt)
  have helsewhere (h : ∀ j, ¬ selectsPayload s j) : ∃ t, exec .tCell s = .next t :=
    exists_next_tCell hr (exists_frameByte_of_not_selectsPayload hidx h)
  refine ⟨fun j hj hpast => ?past, fun j hj hlt => ?inside, helsewhere, fun hwhole => ?whole⟩
  case past =>
    exact exec_tCell_of_no_byte hr ((frameByte_of_selectsPayload hj).trans (List.getElem?_eq_none hpast))
  case inside => exact ⟨hinside j hj hlt, exists_next_tCell hr ⟨_, hinside j hj hlt⟩⟩
  case whole =>
    by_cases hsel : ∃ j, selectsPayload s j
    · obtain ⟨j, hj⟩ := hsel
      have hlt : j < s.pbuf.length := hj.1.trans_le (hplen.trans hwhole.ge)
      exact exists_next_tCell hr ⟨_, hinside j hj hlt⟩
    · exact helsewhere (not_exists.mp hsel)

/-! ### The invariant's states never stop -/

/-- With the payload inside `pbuf` every index of the frame has its byte. -/
theorem exists_frameByte_of_holdsPayload {p : List Byte} (h : HoldsPayload s p) {n : Nat} (hn : n < flen s) :
    ∃ v, frameByte s n = some v := by
  rw [frameByte_eq_getElem? h]
  exact ⟨_, List.getElem?_eq_getElem (hn.trans_eq (length_sentBytes h.1).symm)⟩

/-- In a ready state each of the ten codes has a next state, `T_CELL` where it has a byte to send. -/
theorem exists_next_of_ready (hr : Ready s) (hle : s.seq.toNat ≤ 9)
    (hcell : s.seq = Seq.tCell → ∃ v, frameByte s s.txIdx.toNat = some v) :
    ∃ t, exec (decodeSeq s.seq) s = .next t := by
  rcases seq_cases s.seq hle with hq | hq | hq | hq | hq | hq | hq | hq | hq | hq
  case inr.inr.inr.inr.inr.inl =>
    rw [hq]
    exact exists_next_tCell hr (hcell hq)
  all_goals rw [hq]
  · by_cases ha : answered s.nvIn = true ∧ answered s.nowIn = true
    · exact ⟨_, exec_bLoad_of_answered hr ha.1 ha.2⟩
    · exact ⟨_, exec_bLoad_of_unanswered hr ha⟩
  · cases ha : answered s.measIn
    · exact ⟨_, exec_mMeas_of_unanswered hr ha⟩
    · exact ⟨_, exec_mMeas_of_answered hr ha⟩
  · cases ha : answered s.nowIn
    · exact ⟨_, exec_mInteg_of_unanswered hr ha⟩
    · exact ⟨_, exec_mInteg_of_answered hr ha⟩
  · cases hu : undervolted s
    · exact ⟨_, exec_mGate_of_not_undervolted hr hu⟩
    · exact ⟨_, exec_mGate_of_undervolted hr hu⟩
  · exact ⟨_, exec_tBuild_of_ready hr⟩
  · rcases Nat.lt_or_ge (s.txRep.toNat + 1) s.cfg.copies with hc | hc
    · exact ⟨_, exec_tEnd_further_copy hr hc⟩
    · exact ⟨_, exec_tEnd_last_copy hr hc⟩
  · exact ⟨_, exec_pCheck_of_ready hr⟩
  · exact ⟨_, exec_sArm_of_ready hr⟩
  · cases hf : s.wakeFlag
    · exact ⟨_, exec_sHalt_of_not_wakeFlag hr hf⟩
    · exact ⟨_, exec_sHalt_of_wakeFlag hr hf⟩

theorem Inv.ready (hi : Inv s) : Ready s := ⟨hi.cfgWf, hi.inRange⟩

/-- Settles O57: `MAIN` has a next state by the fields of the invariant, the other moves always have one. -/
theorem invariantStatesNeverStop : Obligations.InvariantStatesNeverStop := by
  intro s hi
  have hp := hi.popAgenda
  cases hm : nextMove s with
  | main =>
    rw [step_main hm]
    refine exists_next_of_ready hp.ready hp.seqLegal fun hq => ?_
    obtain ⟨p, -, hpay, -⟩ := hp.frameBuilt (.inl hq)
    exact exists_frameByte_of_holdsPayload hpay (countersInRange_iff.mp hp.inRange).2.1
  | expiry =>
    rw [step_expiry hm]
    exact ⟨_, exec_isr_of_wf hp.cfgWf⟩
  | powerOn => exact ⟨_, step_powerOn hm⟩
  | nvDone => exact ⟨_, step_nvDone hm⟩

/-! ### An expiry and a step of `MAIN` (R38, R295) -/

/-- The outcome with the wake flag set in the state it answers. -/
def withWakeFlag : Host.Outcome State Fault Refusal → Host.Outcome State Fault Refusal
  | .next t => .next { t with wakeFlag := true }
  | .fault f => .fault f
  | .refused r => .refused r

/-- The guards do not read the wake flag: where they stop a step they stop it all the same. -/
theorem exec_withWakeFlag_of_not_ready (hi : i ∈ mainInstrs) (hr : ¬ Ready s) :
    exec i { s with wakeFlag := true } = withWakeFlag (exec i s) := by
  obtain ⟨k, hk⟩ := exec_eq_onMain hi
  rw [hk, hk]
  cases hwf : s.cfg.wf with
  | false =>
    rw [onMain, onMain, configured_of_not_wf hwf, configured_of_not_wf (s := { s with wakeFlag := true }) hwf]
    rfl
  | true =>
    have hc : countersInRange s = false := Bool.eq_false_iff.mpr fun hc => hr ⟨hwf, hc⟩
    rw [onMain_of_out_of_range hwf hc, onMain_of_out_of_range (s := { s with wakeFlag := true }) hwf hc]
    rfl

/-- The codes outside Sleeping: each outcome, and its condition, is the same with the flag set. -/
theorem exec_withWakeFlag_of_ready (hi : i ∈ [.bLoad, .mMeas, .mInteg, .mGate, .tBuild, .tCell, .tEnd, .pCheck])
    (hr : Ready s) : exec i { s with wakeFlag := true } = withWakeFlag (exec i s) := by
  have hr' : Ready { s with wakeFlag := true } := hr
  simp only [List.mem_cons, List.not_mem_nil, or_false] at hi
  rcases hi with rfl | rfl | rfl | rfl | rfl | rfl | rfl | rfl
  · by_cases ha : answered s.nvIn = true ∧ answered s.nowIn = true
    · rw [exec_bLoad_of_answered hr ha.1 ha.2, exec_bLoad_of_answered hr' ha.1 ha.2]
      rfl
    · rw [exec_bLoad_of_unanswered hr ha, exec_bLoad_of_unanswered hr' ha]
      rfl
  · cases ha : answered s.measIn
    · rw [exec_mMeas_of_unanswered hr ha, exec_mMeas_of_unanswered hr' ha]
      rfl
    · rw [exec_mMeas_of_answered hr ha, exec_mMeas_of_answered hr' ha]
      rfl
  · cases ha : answered s.nowIn
    · rw [exec_mInteg_of_unanswered hr ha, exec_mInteg_of_unanswered hr' ha]
      rfl
    · rw [exec_mInteg_of_answered hr ha, exec_mInteg_of_answered hr' ha]
      rfl
  · cases hu : undervolted s
    · rw [exec_mGate_of_not_undervolted hr hu, exec_mGate_of_not_undervolted hr' hu]
      rfl
    · rw [exec_mGate_of_undervolted hr hu, exec_mGate_of_undervolted hr' hu]
      rfl
  · rw [exec_tBuild_of_ready hr, exec_tBuild_of_ready hr']
    rfl
  · cases hv : frameByte s s.txIdx.toNat with
    | none =>
      rw [exec_tCell_of_no_byte hr hv, exec_tCell_of_no_byte hr' hv]
      rfl
    | some v =>
      rw [exec_tCell_closed hr hv, exec_tCell_closed hr' hv]
      rfl
  · rcases Nat.lt_or_ge (s.txRep.toNat + 1) s.cfg.copies with hc | hc
    · rw [exec_tEnd_further_copy hr hc, exec_tEnd_further_copy hr' hc]
      rfl
    · rw [exec_tEnd_last_copy hr hc, exec_tEnd_last_copy hr' hc]
      rfl
  · cases hd : drifted s
    · rw [exec_pCheck_of_not_drifted hr hd, exec_pCheck_of_not_drifted hr' hd]
      rfl
    · rw [exec_pCheck_of_drifted hr hd, exec_pCheck_of_drifted hr' hd]
      rfl

/-- Settles O40: behind the guards by the outcomes of the eight codes, before them by what the guards read. -/
theorem expiryCommutesWithMain : Obligations.ExpiryCommutesWithMain := by
  intro i s hi
  have h : exec i { s with wakeFlag := true } = withWakeFlag (exec i s) := by
    by_cases hr : Ready s
    · exact exec_withWakeFlag_of_ready hi hr
    · have hmain : i ∈ mainInstrs := List.mem_append_left [Instr.sArm, Instr.sHalt] hi
      exact exec_withWakeFlag_of_not_ready hmain hr
  rw [h]
  cases exec i s <;> rfl

end Sys2Proof.Machine
end

section
/-! Rounding (00_scope.md R10): the quotient lies between two neighbouring magnitudes, the rounded one is the nearer
of them, and sums are exact or on the right side of what is added to. -/

namespace Sys2Proof.Machine

variable {a b x : F32} {num den m n y : Nat} {neg : Bool} {s t : State}

/-! ### The two magnitudes beside a quotient -/

/-- The exponent step of `roundMag`. -/
def roundExp (num den : Nat) : Nat := Nat.log2 (num / den) - 23

/-- The unit of the last place at that exponent, in units of `1 / den`. -/
def roundUnit (num den : Nat) : Nat := den * 2 ^ roundExp num den

/-- The magnitude at or just below the quotient. -/
def roundDown (num den : Nat) : Nat := roundExp num den * 2 ^ 23 + num / roundUnit num den

/-- The quotient is past the middle of the two magnitudes, or in the middle with an odd one below. -/
abbrev roundsUp (num den : Nat) : Prop :=
  roundUnit num den < 2 * (num % roundUnit num den)
    ∨ (2 * (num % roundUnit num den) = roundUnit num den ∧ num / roundUnit num den % 2 = 1)

theorem roundMag_eq (num den : Nat) :
    roundMag num den = min (if roundsUp num den then roundDown num den + 1 else roundDown num den) infMag := by
  unfold roundMag
  change min (roundExp num den * 2 ^ 23 +
    if roundsUp num den then num / roundUnit num den + 1 else num / roundUnit num den) _ = _
  by_cases hup : roundsUp num den
  · rw [if_pos hup, if_pos hup, roundDown, Nat.add_assoc]
  · rw [if_neg hup, if_neg hup, roundDown]

theorem roundMag_of_finite (h : roundMag num den < infMag) :
    roundMag num den = if roundsUp num den then roundDown num den + 1 else roundDown num den := by
  rw [roundMag_eq] at h ⊢
  exact min_eq_left (not_le.mp fun hle => (min_eq_right hle ▸ h).false).le

theorem infMag_eq : infMag = 255 * 2 ^ 23 := by decide

theorem roundMag_eq_infMag_iff_le : roundMag num den = infMag ↔
    255 * 2 ^ 23 ≤ if roundsUp num den then roundDown num den + 1 else roundDown num den := by
  rw [roundMag_eq, min_eq_right_iff, infMag_eq]

theorem roundUnit_pos (hden : 0 < den) : 0 < roundUnit num den := Nat.mul_pos hden (Nat.two_pow_pos _)

/-- The quotient has at most 24 bits at its exponent, and 24 where the exponent is not the least. -/
theorem quotient_range (num den : Nat) :
    num / roundUnit num den < 2 ^ 24 ∧ (roundExp num den = 0 ∨ 2 ^ 23 ≤ num / roundUnit num den) := by
  rw [roundUnit, ← Nat.div_div_eq_div_mul, roundExp]
  generalize num / den = q
  rcases Nat.eq_zero_or_pos q with rfl | hq
  · exact ⟨by simp, .inl (by simp)⟩
  have hlow : 2 ^ q.log2 ≤ q := Nat.log2_self_le hq.ne'
  have hhigh : q < 2 ^ (q.log2 + 1) := Nat.lt_log2_self
  rcases Nat.lt_or_ge q.log2 24 with h24 | h24
  · have hexp : q.log2 - 23 = 0 := by omega
    have hle : 2 ^ (q.log2 + 1) ≤ 2 ^ 24 := Nat.pow_le_pow_right (by decide) (by omega)
    rw [hexp, pow_zero, Nat.div_one]
    exact ⟨by omega, .inl rfl⟩
  · obtain ⟨k, hk⟩ := Nat.exists_eq_add_of_le h24
    have hexp : q.log2 - 23 = k + 1 := by omega
    rw [hexp]
    rw [hk, show 24 + k = 23 + (k + 1) by omega, pow_add] at hlow
    rw [hk, show 24 + k + 1 = 24 + (k + 1) by omega, pow_add] at hhigh
    exact ⟨Nat.div_lt_of_lt_mul (by rwa [Nat.mul_comm]),
      .inr ((Nat.le_div_iff_mul_le (Nat.two_pow_pos _)).mpr hlow)⟩

/-- A quotient of at most 24 bits at an exponent is the units of the magnitude made of both. -/
theorem unitsOf_exp (k : Nat) (hm : m ≤ 2 ^ 24) (hk : k = 0 ∨ 2 ^ 23 ≤ m) :
    unitsOf (k * 2 ^ 23 + m) = m * 2 ^ k := by
  rcases Nat.lt_or_ge m (2 ^ 23) with hlt | hge
  · obtain rfl : k = 0 := by omega
    rw [Nat.zero_mul, Nat.zero_add, unitsOf_of_lt hlt, pow_zero, Nat.mul_one]
  · rw [unitsOf_of_le (by omega)]
    rcases Nat.lt_or_ge m (2 ^ 24) with hlt | htop
    · rw [show (k * 2 ^ 23 + m) % 2 ^ 23 = m - 2 ^ 23 by omega, show (k * 2 ^ 23 + m) / 2 ^ 23 - 1 = k by omega,
        Nat.add_sub_cancel' hge]
    · obtain rfl : m = 2 ^ 24 := by omega
      rw [show (k * 2 ^ 23 + 2 ^ 24) % 2 ^ 23 = 0 by omega, show (k * 2 ^ 23 + 2 ^ 24) / 2 ^ 23 - 1 = k + 1 by omega,
        pow_succ]
      ring

theorem unitsOf_roundDown (num den : Nat) :
    unitsOf (roundDown num den) * den = num / roundUnit num den * roundUnit num den := by
  obtain ⟨hlt, hk⟩ := quotient_range num den
  rw [roundDown, unitsOf_exp _ hlt.le hk, roundUnit]
  ring

theorem unitsOf_roundDown_succ (num den : Nat) :
    unitsOf (roundDown num den + 1) * den = (num / roundUnit num den + 1) * roundUnit num den := by
  obtain ⟨hlt, hk⟩ := quotient_range num den
  rw [roundDown, Nat.add_assoc, unitsOf_exp _ hlt (hk.imp_right Nat.le_succ_of_le), Nat.succ_eq_add_one, roundUnit]
  ring

/-- The quotient's place: `num % roundUnit` past the magnitude below it, in a gap of `roundUnit`. -/
theorem roundDown_gap (num den : Nat) :
    unitsOf (roundDown num den) * den + num % roundUnit num den = num
      ∧ unitsOf (roundDown num den + 1) * den = unitsOf (roundDown num den) * den + roundUnit num den := by
  constructor
  · rw [unitsOf_roundDown, Nat.mul_comm]
    exact Nat.div_add_mod ..
  · rw [unitsOf_roundDown_succ, unitsOf_roundDown, Nat.succ_mul]

theorem unitsOf_roundDown_le (num den : Nat) : unitsOf (roundDown num den) * den ≤ num := by
  obtain ⟨hnum, -⟩ := roundDown_gap num den
  omega

theorem lt_unitsOf_roundDown_succ (hden : 0 < den) : num < unitsOf (roundDown num den + 1) * den := by
  obtain ⟨hnum, hsucc⟩ := roundDown_gap num den
  have hmod := Nat.mod_lt num (roundUnit_pos (num := num) hden)
  omega

/-- Magnitudes up to the lower one are no larger than it in value, the others no smaller than the upper one. -/
theorem unitsOf_outside_gap (num den y : Nat) :
    (y ≤ roundDown num den ∧ unitsOf y * den ≤ unitsOf (roundDown num den) * den)
      ∨ (roundDown num den + 1 ≤ y ∧ unitsOf (roundDown num den + 1) * den ≤ unitsOf y * den) := by
  rcases Nat.lt_or_ge (roundDown num den) y with h | h
  · exact .inr ⟨h, Nat.mul_le_mul_right den (unitsOf_le_unitsOf_iff.mpr h)⟩
  · exact .inl ⟨h, Nat.mul_le_mul_right den (unitsOf_le_unitsOf_iff.mpr h)⟩

theorem eq_of_unitsOf_mul_eq (hden : 0 < den) (h : unitsOf m * den = unitsOf n * den) : m = n :=
  strictMono_unitsOf.injective (Nat.eq_of_mul_eq_mul_right hden h)

theorem roundDown_mod_two (num den : Nat) : roundDown num den % 2 = num / roundUnit num den % 2 := by
  rw [roundDown]
  omega

/-! ### The rounded magnitude is the nearest (R10) -/

/-- No magnitude is nearer than the one on the quotient's side of the middle, and in the middle it is the even one. -/
theorem roundMag_nearest (hden : 0 < den) (hfin : roundMag num den < infMag) (y : Nat) :
    let dr := ((unitsOf (roundMag num den) * den : Nat) - (num : Int)).natAbs
    let dy := ((unitsOf y * den : Nat) - (num : Int)).natAbs
    dr ≤ dy ∧ (dr = dy → y = roundMag num den ∨ roundMag num den % 2 = 0) := by
  intro dr dy
  obtain ⟨hnum, hsucc⟩ := roundDown_gap num den
  have hmod := Nat.mod_lt num (roundUnit_pos (num := num) hden)
  have hparity := roundDown_mod_two num den
  have hround := roundMag_of_finite hfin
  simp only [dr, dy]
  by_cases hup : roundsUp num den
  · rw [hround, if_pos hup]
    obtain ⟨-, hy⟩ | ⟨-, hy⟩ := unitsOf_outside_gap num den y
    · exact ⟨by omega, fun h => .inr (by omega)⟩
    · exact ⟨by omega, fun h => .inl (eq_of_unitsOf_mul_eq hden (by omega))⟩
  · rw [hround, if_neg hup]
    obtain ⟨-, hy⟩ | ⟨-, hy⟩ := unitsOf_outside_gap num den y
    · exact ⟨by omega, fun h => .inl (eq_of_unitsOf_mul_eq hden (by omega))⟩
    · exact ⟨by omega, fun h => .inr (by omega)⟩

/-- At the last finite magnitude the exponent is 253 and the quotient is all ones. -/
theorem roundExp_of_roundDown_eq (h : roundDown num den = 255 * 2 ^ 23 - 1) :
    roundExp num den = 253 ∧ num / roundUnit num den = 2 ^ 24 - 1 := by
  obtain ⟨hlt, hk⟩ := quotient_range num den
  rw [roundDown] at h
  omega

/-- The overflow bound is the middle between the largest finite magnitude and what would follow it. -/
theorem roundMag_eq_infMag_iff (hden : 0 < den) :
    roundMag num den = infMag ↔ (2 ^ 25 - 1) * 2 ^ 252 * den ≤ num := by
  have hlt := lt_unitsOf_roundDown_succ (num := num) hden
  have hle := unitsOf_roundDown_le num den
  have hinf : unitsOf (255 * 2 ^ 23) = 2 ^ 23 * 2 ^ 254 := unitsOf_exp (m := 2 ^ 23) 254 (by decide) (by decide)
  have hlast : unitsOf (255 * 2 ^ 23 - 1) = (2 ^ 24 - 1) * 2 ^ 253 :=
    unitsOf_exp (m := 2 ^ 24 - 1) 253 (by decide) (by decide)
  rw [roundMag_eq_infMag_iff_le]
  rcases Nat.lt_trichotomy (roundDown num den) (255 * 2 ^ 23 - 1) with h | h | h
  · have hbelow : unitsOf (roundDown num den + 1) * den ≤ unitsOf (255 * 2 ^ 23 - 1) * den :=
      Nat.mul_le_mul_right den (unitsOf_le_unitsOf_iff.mpr h)
    rw [hlast] at hbelow
    refine iff_of_false ?_ (by omega)
    split <;> omega
  · obtain ⟨hexp, hquot⟩ := roundExp_of_roundDown_eq h
    obtain ⟨hnum, -⟩ := roundDown_gap num den
    have hunit : roundUnit num den = den * 2 ^ 253 := by rw [roundUnit, hexp]
    have hups : roundsUp num den ↔ den * 2 ^ 253 ≤ 2 * (num % (den * 2 ^ 253)) := by
      rw [roundsUp, hquot, hunit]
      omega
    rw [h, hlast, hunit] at hnum
    simp only [h, hups]
    split <;> omega
  · have habove : unitsOf (255 * 2 ^ 23) * den ≤ unitsOf (roundDown num den) * den :=
      Nat.mul_le_mul_right den (unitsOf_le_unitsOf_iff.mpr (by omega))
    rw [hinf] at habove
    refine iff_of_true ?_ (by omega)
    split <;> omega

/-- Settles O29. -/
theorem roundingIsToNearestEven : Obligations.RoundingIsToNearestEven :=
  fun _ _ hden => ⟨fun hfin y _ => roundMag_nearest hden hfin y, roundMag_eq_infMag_iff hden⟩

/-! ### Rounding from one side -/

theorem le_roundMag (hden : 0 < den) (hm : m ≤ infMag) (h : unitsOf m * den ≤ num) : m ≤ roundMag num den := by
  have hlt := h.trans_lt (lt_unitsOf_roundDown_succ (num := num) hden)
  have hbase : m < roundDown num den + 1 := strictMono_unitsOf.lt_iff_lt.mp (Nat.lt_of_mul_lt_mul_right hlt)
  rw [roundMag_eq]
  refine le_min ?_ hm
  split <;> omega

theorem roundMag_le (hden : 0 < den) (h : num ≤ unitsOf m * den) : roundMag num den ≤ m := by
  have hbase : roundDown num den ≤ m := by
    have hle := (unitsOf_roundDown_le num den).trans h
    exact unitsOf_le_unitsOf_iff.mp (Nat.le_of_mul_le_mul_right hle hden)
  rw [roundMag_eq]
  refine min_le_of_left_le ?_
  split
  next hup =>
    have hne : roundDown num den ≠ m := by
      rintro rfl
      obtain ⟨hnum, -⟩ := roundDown_gap num den
      have hunit := roundUnit_pos (num := num) hden
      omega
    omega
  next => exact hbase

theorem roundMag_unitsOf (hm : m ≤ infMag) : roundMag (unitsOf m) 1 = m :=
  Nat.le_antisymm (roundMag_le one_pos (Nat.mul_one _).ge) (le_roundMag one_pos hm (Nat.mul_one _).le)

/-! ### Signs and values of sums -/

theorem sign_pack (h : m < 2 ^ 31) : sign (pack neg m) = neg := by
  rw [sign_eq_decide]
  cases neg <;> simp [pack] <;> omega

theorem value_pack (h : m < 2 ^ 31) : value (pack neg m) = if neg then -(unitsOf m : Int) else unitsOf m := by
  rw [value, sign_pack h, mag_pack h]

/-- A pattern is its sign and its magnitude. -/
theorem pack_sign_mag (x : F32) : pack (sign x) (mag x) = x := by
  have hx : x.toNat < 2 ^ 32 := x.isLt
  apply BitVec.eq_of_toNat_eq
  simp only [pack, sign_eq_decide, mag, BitVec.toNat_ofNat, decide_eq_true_eq]
  split <;> omega

theorem natAbs_value (x : F32) : (value x).natAbs = unitsOf (mag x) := by
  unfold value
  split <;> simp

theorem fadd_of_finite (ha : isfinite a = true) (hb : isfinite b = true) :
    fadd a b = if value a + value b = 0 then pack (sign a && sign b) 0
      else pack (decide (value a + value b < 0)) (roundMag (value a + value b).natAbs 1) := by
  simp [fadd, isnan_of_isfinite ha, isnan_of_isfinite hb, isinf_of_isfinite ha, isinf_of_isfinite hb]

/-- Adding +0.0 gives the pattern back, but for the sign of a zero. -/
theorem fadd_zero (ha : isfinite a = true) : fadd a 0#32 = if mag a = 0 then 0#32 else a := by
  have hlt : mag a < infMag := of_decide_eq_true ha
  have hz : value 0#32 = 0 := by decide
  have hs : sign 0#32 = false := by decide
  have hvalue : value a = 0 ↔ mag a = 0 := by
    rw [← Int.natAbs_eq_zero, natAbs_value, unitsOf_eq_zero_iff]
  rw [fadd_of_finite ha (by decide), hz, hs, Int.add_zero, natAbs_value, roundMag_unitsOf hlt.le, Bool.and_false]
  simp only [hvalue]
  split
  · rfl
  next hne =>
    have hpos : 0 < unitsOf (mag a) := Nat.pos_of_ne_zero (mt unitsOf_eq_zero_iff.mp hne)
    have hsign : decide (value a < 0) = sign a := by
      unfold value
      cases sign a with
      | false => simp
      | true => simpa using hpos
    rw [hsign, pack_sign_mag]

/-- Settles O8: with the clock standing still or wrapped the increment is the fallback, +0.0. -/
theorem wrappedClockAddsNothing : Obligations.WrappedClockAddsNothing := by
  intro s now q hr hnow hle hfall hacc
  have hinc : increment s (fmul s.vrms s.irms) now = 0#32 := by
    rw [increment, clockAdvanced, decide_eq_false (Nat.not_lt.mpr hle), if_neg Bool.false_ne_true, hfall]
  have hexec := exec_mInteg_of_answered hr (by rw [hnow, answered_some])
  rw [hnow, answerOr_some] at hexec
  refine ⟨_, hexec, rfl, ?_⟩
  have hsum : fadd s.acc 0#32 = if mag s.acc = 0 then 0#32 else s.acc := fadd_zero hacc
  change integrated s _ now = s.acc ∨ s.acc = _ ∧ integrated s _ now = _
  rw [integrated, hinc, hsum]
  by_cases hm : mag s.acc = 0
  · have hpat := pack_sign_mag s.acc
    rw [hm] at hpat
    rw [if_pos hm]
    cases hs : sign s.acc with
    | true =>
      rw [hs] at hpat
      exact .inr ⟨hpat.symm, rfl⟩
    | false =>
      rw [hs] at hpat
      exact .inl hpat
  · rw [if_neg hm, ite_self]
    exact .inl rfl

/-! ### A sum and what is added to (R137) -/

/-- What is added to a finite value with a finite sum is finite, where it is a number. -/
theorem isfinite_of_isfinite_fadd (ha : isfinite a = true) (hb : isnan b = false) (h : isfinite (fadd a b) = true) :
    isfinite b = true := by
  by_contra hnot
  have hinf : isinf b = true := by
    have hge : infMag ≤ mag b := not_lt.mp fun hlt => hnot (decide_eq_true hlt)
    exact decide_eq_true (Nat.le_antisymm (isnan_eq_false_iff.mp hb) hge)
  have hsum : fadd a b = b := by simp [fadd, isnan_of_isfinite ha, hb, isinf_of_isfinite ha, hinf]
  rw [hsum] at h
  exact hnot h

/-- Rounding keeps the side on which the exact sum stands. -/
theorem value_le_value_fadd (ha : isfinite a = true) (hb : isfinite b = true) (h : 0 ≤ value b) :
    value a ≤ value (fadd a b) := by
  have hlt : mag a < infMag := of_decide_eq_true ha
  have hmag (n : Nat) : roundMag n 1 < 2 ^ 31 := (roundMag_le_infMag n 1).trans_lt (by decide)
  have habs := natAbs_value a
  rw [fadd_of_finite ha hb]
  split
  next hz =>
    rw [value_pack (by decide)]
    have hzero : unitsOf 0 = 0 := rfl
    split <;> omega
  next hz =>
    rw [value_pack (hmag _)]
    by_cases hneg : value a + value b < 0
    · have hround : roundMag (value a + value b).natAbs 1 ≤ mag a := roundMag_le one_pos (by omega)
      have hunits := unitsOf_le_unitsOf_iff.mpr hround
      rw [if_pos (decide_eq_true hneg)]
      omega
    · rw [decide_eq_false hneg, if_neg Bool.false_ne_true]
      rcases Int.lt_or_le (value a) 0 with hvneg | hvpos
      · omega
      · have hround : mag a ≤ roundMag (value a + value b).natAbs 1 := le_roundMag one_pos hlt.le (by omega)
        have hunits := unitsOf_le_unitsOf_iff.mpr hround
        omega

/-- Settles O9: where the sum is kept it is not below the accumulator, and where it is dropped the accumulator stays. -/
theorem nonNegativeIncrementNeverDecreases : Obligations.NonNegativeIncrementNeverDecreases := by
  intro s t ha h hacc hinc
  have hr := ready_of_exec_mInteg h
  rw [exec_mInteg_of_answered hr ha] at h
  cases h
  change fge (integrated s _ _) s.acc = true
  have hnan := isnan_of_isfinite hacc
  rw [integrated]
  split
  next hsum =>
    obtain ⟨hincNan, -, -⟩ := fge_iff.mp hinc
    have hnonneg : 0 ≤ value (increment s (fmul s.vrms s.irms) (answerOr (Config.freeNow s.draws) s.nowIn)) :=
      (fge_iff_value_le hincNan (by decide)).mp hinc
    have hfin := isfinite_of_isfinite_fadd hacc hincNan hsum
    exact (fge_iff_value_le (isnan_of_isfinite hsum) hnan).mpr (value_le_value_fadd hacc hfin hnonneg)
  next => exact (fge_iff_value_le hnan hnan).mpr le_rfl

end Sys2Proof.Machine
end

section
/-! Runs of several steps, and the runs of Sleeping (44_scheduler.md R231 to R233): expiries served between the steps
of `MAIN` set the wake flag and nothing else, so an interval is one arm, one halt and one wake. -/

namespace Sys2Proof.Machine

variable {s t : State} {rest : List Move} {k m n : Nat}

/-! ### Runs -/

theorem run_succ {M : Host.Core} {s t : M.State} (h : M.step s = .next t) (k : Nat) : M.run (k + 1) s = M.run k t := by
  rw [Host.Core.run, h]

/-- A run goes on from where its first part ends. -/
theorem run_add {M : Host.Core} {s t : M.State} {m : Nat} (h : M.run m s = .next t) (k : Nat) :
    M.run (m + k) s = M.run k t := by
  induction m generalizing s with
  | zero =>
    cases h
    rw [Nat.zero_add]
  | succ m ih =>
    cases hs : M.step s with
    | next u =>
      rw [run_succ hs] at h
      rw [Nat.add_right_comm, run_succ hs, ih h]
    | fault r =>
      rw [Host.Core.run, hs] at h
      cases h
    | refused r =>
      rw [Host.Core.run, hs] at h
      cases h

theorem runSteps_zero (s : State) : runSteps 0 s = .next s := rfl

theorem runSteps_succ (h : step s = .next t) (k : Nat) : runSteps (k + 1) s = runSteps k t :=
  run_succ (M := core) h k

theorem runSteps_one (h : step s = .next t) : runSteps 1 s = .next t := runSteps_succ h 0

theorem runSteps_add (h : runSteps m s = .next t) (k : Nat) : runSteps (m + k) s = runSteps k t :=
  run_add (M := core) h k

/-! ### Steps with the agent on the agenda -/

/-- With `MAIN` first on the agenda a step runs the code of `seq`. -/
theorem step_of_main_cons {q : BitVec 4} (hq : s.seq = q) (h : s.agenda = .main :: rest) :
    step s = exec (decodeSeq q) { s with agenda := rest } := by
  subst hq
  rw [step_main (nextMove_cons _ _ h), popAgenda, h, List.tail_cons]

theorem step_of_expiry_cons (hwf : s.cfg.wf = true) (h : s.agenda = .expiry :: rest) :
    step s = .next { s with wakeFlag := true, agenda := rest } := by
  rw [step_expiry (nextMove_cons _ _ h), exec_isr_of_wf (s := popAgenda s) hwf, takeExpiry, popAgenda, h,
    List.tail_cons]

/-- Expiries served one after another set the wake flag once and for all. -/
theorem runSteps_expiries (hwf : s.cfg.wf = true) (h : s.agenda = List.replicate n .expiry ++ rest) :
    runSteps n s = .next { s with wakeFlag := if n = 0 then s.wakeFlag else true, agenda := rest } := by
  induction n generalizing s with
  | zero =>
    rw [List.replicate_zero, List.nil_append] at h
    rw [runSteps_zero, if_pos rfl, ← h]
  | succ n ih =>
    rw [List.replicate_succ, List.cons_append] at h
    rw [runSteps_succ (step_of_expiry_cons hwf h)]
    refine Eq.trans (ih hwf rfl) ?_
    rw [ite_self, if_neg (Nat.succ_ne_zero n)]

theorem step_sArm (hr : Ready s) (hq : s.seq = Seq.sArm) (h : s.agenda = .main :: rest) :
    step s = .next { s with
      wakeFlag := false
      trace := s.trace ++ [.armTimer, .halt]
      halted := true
      seq := Seq.sHalt
      agenda := rest } := by
  rw [step_of_main_cons hq h]
  exact exec_sArm_of_ready (s := { s with agenda := rest }) hr

theorem step_sHalt_of_wakeFlag (hr : Ready s) (hq : s.seq = Seq.sHalt) (hf : s.wakeFlag = true)
    (h : s.agenda = .main :: rest) :
    step s = .next { s with
      halted := false
      trace := s.trace ++ [.wake]
      sleepCnt := s.sleepCnt + 1#8
      seq := if s.sleepCnt.toNat + 1 < s.cfg.sleepIntervals then Seq.sArm else Seq.mMeas
      agenda := rest } := by
  rw [step_of_main_cons hq h]
  exact exec_sHalt_of_wakeFlag (s := { s with agenda := rest }) hr hf

theorem step_sHalt_of_not_wakeFlag (hr : Ready s) (hq : s.seq = Seq.sHalt) (hf : s.wakeFlag = false)
    (h : s.agenda = .main :: rest) : step s = .next { s with agenda := rest } := by
  rw [step_of_main_cons hq h]
  exact exec_sHalt_of_not_wakeFlag (s := { s with agenda := rest }) hr hf

/-! ### Waiting (R231) -/

/-- Settles O35: each step of `MAIN` uses up its move and changes nothing. -/
theorem noExpiryNoWake : Obligations.NoExpiryNoWake := by
  intro n
  induction n with
  | zero =>
    intro s _ _ _ h
    rw [List.replicate_zero] at h
    rw [runSteps_zero, ← h]
  | succ n ih =>
    intro s hr hq hf h
    rw [List.replicate_succ] at h
    rw [runSteps_succ (step_sHalt_of_not_wakeFlag hr hq hf h)]
    exact ih { s with agenda := List.replicate n .main } hr hq hf rfl

/-! ### The intervals of Sleeping (R232, R296) -/

/-- Arm, halt and wake, with whatever expiries stand before the arming and at least one after it. -/
theorem runSteps_interval {ab : Nat × Nat} (hr : Ready s) (hq : s.seq = Seq.sArm)
    (h : s.agenda = intervalMoves ab ++ rest) :
    runSteps (intervalMoves ab).length s = .next { s with
      seq := if s.sleepCnt.toNat + 1 < s.cfg.sleepIntervals then Seq.sArm else Seq.mMeas
      sleepCnt := s.sleepCnt + 1#8
      halted := false
      wakeFlag := true
      trace := s.trace ++ [.armTimer, .halt, .wake]
      agenda := rest } := by
  obtain ⟨a, b⟩ := ab
  have hlen : (intervalMoves (a, b)).length = a + ((b + 1) + 1 + 1) := by
    simp [intervalMoves]
  simp only [intervalMoves, List.append_assoc, List.cons_append, List.nil_append] at h
  rw [hlen, runSteps_add (runSteps_expiries hr.1 h)]
  refine Eq.trans (runSteps_succ (step_sArm (by exact hr) (by exact hq) rfl) _) ?_
  refine Eq.trans (runSteps_add (runSteps_expiries (by exact hr.1) rfl) 1) ?_
  refine Eq.trans (runSteps_one (step_sHalt_of_wakeFlag (by exact hr) rfl rfl rfl)) ?_
  simp only [List.append_assoc, List.cons_append, List.nil_append, if_neg (Nat.succ_ne_zero b)]

theorem ofNat_add_one (x : BitVec 8) (n : Nat) :
    BitVec.ofNat 8 (x.toNat + (n + 1)) = BitVec.ofNat 8 ((x + 1#8).toNat + n) := by
  apply BitVec.eq_of_toNat_eq
  simp only [BitVec.toNat_ofNat, BitVec.toNat_add]
  omega

/-- The intervals that are still to come, one after another, up to the next Measuring. -/
theorem runSteps_intervals {ab : List (Nat × Nat)} (hr : Ready s) (hq : s.seq = Seq.sArm) (hne : ab ≠ [])
    (hcnt : s.sleepCnt.toNat + ab.length = s.cfg.sleepIntervals) (h : s.agenda = ab.flatMap intervalMoves ++ rest) :
    runSteps (ab.flatMap intervalMoves).length s = .next { s with
      seq := Seq.mMeas
      sleepCnt := BitVec.ofNat 8 s.cfg.sleepIntervals
      halted := false
      wakeFlag := true
      trace := s.trace ++ (List.replicate ab.length [Event.armTimer, Event.halt, Event.wake]).flatten
      agenda := rest } := by
  induction ab generalizing s with
  | nil => exact absurd rfl hne
  | cons x xs ih =>
    rw [List.length_cons] at hcnt
    have hround : BitVec.ofNat 8 s.cfg.sleepIntervals = BitVec.ofNat 8 ((s.sleepCnt + 1#8).toNat + xs.length) := by
      rw [← hcnt, ofNat_add_one]
    rw [List.flatMap_cons, List.append_assoc] at h
    have hfirst := runSteps_interval hr hq h
    rw [List.flatMap_cons, List.length_append, runSteps_add hfirst]
    cases xs with
    | nil =>
      rw [List.length_nil, Nat.add_zero, BitVec.ofNat_toNat, BitVec.setWidth_eq] at hround
      rw [if_neg (by rw [List.length_nil] at hcnt; omega), hround]
      rfl
    | cons y ys =>
      obtain ⟨-, -, -, hmax, -⟩ := wf_bounds hr.1
      obtain ⟨hbit, hidx, hrep, -, hplen⟩ := countersInRange_iff.mp hr.2
      rw [List.length_cons] at hcnt
      have hcount : (s.sleepCnt + 1#8).toNat = s.sleepCnt.toNat + 1 := toNat_add_one (by omega)
      have hmore : s.sleepCnt.toNat + 1 < s.cfg.sleepIntervals := by omega
      rw [if_pos hmore]
      have hr' : Ready { s with sleepCnt := s.sleepCnt + 1#8 } :=
        ⟨hr.1, countersInRange_iff.mpr ⟨hbit, hidx, hrep, hcount.trans_le hmore.le, hplen⟩⟩
      refine Eq.trans (ih hr' rfl (List.cons_ne_nil y ys) ?_ rfl) ?_
      · change (s.sleepCnt + 1#8).toNat + (ys.length + 1) = s.cfg.sleepIntervals
        omega
      · simp [List.replicate_succ]

/-- Settles O36: from the first interval on, with nothing left on the agenda after the last. -/
theorem sleepTakesExactlyTheIntervals : Obligations.SleepTakesExactlyTheIntervals := by
  intro s ab hr hq hcnt hlen h
  obtain ⟨-, -, hpos, -⟩ := wf_bounds hr.1
  have hne : ab ≠ [] := List.ne_nil_of_length_pos (hlen ▸ hpos)
  have hrun := runSteps_intervals (rest := []) hr hq hne (by rw [hcnt, hlen]; exact Nat.zero_add _)
    (by rw [h, List.append_nil])
  rw [h, hrun, hlen, sleepEvents]

/-! ### The undervoltage cycle (R233) -/

theorem step_mMeas_scripted {r : MeasResp} {q : List (Option MeasResp)} (hr : Ready s) (hq : s.seq = Seq.mMeas)
    (hm : s.measIn = some r :: q) (h : s.agenda = .main :: rest) :
    step s = .next { s with
      vrms := r.vrms
      irms := r.irms
      vbat := r.vbat
      seq := Seq.mInteg
      trace := s.trace ++ [.measReq]
      measIn := q
      draws := s.draws + 1
      agenda := rest } := by
  rw [step_of_main_cons hq h]
  refine Eq.trans (exec_mMeas_of_answered hr (by rw [hm, answered_some])) ?_
  simp only [hm, answerOr_some, List.tail_cons]

theorem step_mInteg_of_answered (hr : Ready s) (hq : s.seq = Seq.mInteg) (ha : answered s.nowIn = true)
    (h : s.agenda = .main :: rest) :
    step s = .next { s with
      power := fmul s.vrms s.irms
      acc := integrated s (fmul s.vrms s.irms) (answerOr (Config.freeNow s.draws) s.nowIn)
      lastTs := answerOr (Config.freeNow s.draws) s.nowIn
      seq := Seq.mGate
      nowIn := s.nowIn.tail
      draws := s.draws + 1
      agenda := rest } := by
  rw [step_of_main_cons hq h]
  exact exec_mInteg_of_answered (s := { s with agenda := rest }) hr ha

theorem step_mGate_of_undervolted (hr : Ready s) (hq : s.seq = Seq.mGate) (hu : undervolted s = true)
    (h : s.agenda = .main :: rest) :
    step s = .next { s with
      uv := true, trace := s.trace ++ [.diag 2], sleepCnt := 0#8, seq := Seq.sArm, agenda := rest } := by
  rw [step_of_main_cons hq h]
  exact exec_mGate_of_undervolted (s := { s with agenda := rest }) hr hu

/-- The guards of `MAIN` are open where no interval is counted yet. -/
theorem ready_of_sleepCnt_zero (hr : Ready s) : Ready { s with sleepCnt := 0#8 } := by
  obtain ⟨hwf, hc⟩ := hr
  obtain ⟨hbit, hidx, hrep, -, hplen⟩ := countersInRange_iff.mp hc
  exact ⟨hwf, countersInRange_iff.mpr ⟨hbit, hidx, hrep, Nat.zero_le _, hplen⟩⟩

/-- Settles O37: measure, integrate, find the gate shut, and sleep. -/
theorem undervoltageCycle : Obligations.UndervoltageCycle := by
  intro s r q ab hr hq hm hu ha hlen h now
  obtain ⟨-, -, hpos, -⟩ := wf_bounds hr.1
  have hne : ab ≠ [] := List.ne_nil_of_length_pos (hlen ▸ hpos)
  have hsteps : s.agenda.length = (ab.flatMap intervalMoves).length + 1 + 1 + 1 := by
    rw [h, List.length_append, List.length_replicate]
    omega
  rw [hsteps, runSteps_succ (step_mMeas_scripted hr hq hm h)]
  refine Eq.trans (runSteps_succ (step_mInteg_of_answered (by exact hr) rfl (by exact ha) rfl) _) ?_
  refine Eq.trans (runSteps_succ (step_mGate_of_undervolted (by exact hr) rfl (by exact hu) rfl) _) ?_
  refine Eq.trans (runSteps_intervals (rest := []) (ready_of_sleepCnt_zero hr) rfl hne ?_ (List.append_nil _).symm) ?_
  · exact (Nat.zero_add _).trans hlen
  · rw [hlen]
    simp only [List.append_assoc, List.cons_append, List.nil_append]
    rfl

/-! ### A persisted value over a reset (R64) -/

/-- The bytes of a word spell it again (R65). -/
theorem respPattern_leBytes (u : BitVec 32) :
    respPattern ⟨true, byteOf u 0, byteOf u 1, byteOf u 2, byteOf u 3⟩ = u := by
  change leWord _ _ _ _ = u
  apply BitVec.eq_of_getLsbD_eq
  intro j hj
  simp only [leWord, byteOf, BitVec.getLsbD_or, BitVec.getLsbD_shiftLeft, BitVec.getLsbD_setWidth,
    BitVec.getLsbD_extractLsb', hj]
  rcases Nat.lt_or_ge j 8 with h8 | h8
  · simp [h8, show j < 16 by omega, show j < 24 by omega]
  rcases Nat.lt_or_ge j 16 with h16 | h16
  · simp [show ¬ j < 8 by omega, h16, show j < 24 by omega, show j - 8 < 8 by omega, show j - 8 < 32 by omega,
      Nat.add_sub_cancel' h8]
  rcases Nat.lt_or_ge j 24 with h24 | h24
  · simp [show ¬ j < 8 by omega, show ¬ j < 16 by omega, h24, show ¬ j - 8 < 8 by omega, show j - 16 < 8 by omega,
      show j - 16 < 32 by omega, Nat.add_sub_cancel' h16]
  · simp [show ¬ j < 8 by omega, show ¬ j < 16 by omega, show ¬ j < 24 by omega, show ¬ j - 8 < 8 by omega,
      show ¬ j - 16 < 8 by omega, show j - 24 < 8 by omega, show j - 24 < 32 by omega, Nat.add_sub_cancel' h24]

/-- After `NvWr` of a word, the store's own answer is that word. -/
theorem storeAnswer_of_nvWrite {u : BitVec 32} (h : t.nv = (nvWrite s u).nv) (hc : t.cfg = s.cfg) :
    storeAnswer t = ⟨true, byteOf u 0, byteOf u 1, byteOf u 2, byteOf u 3⟩ := by
  have hread (i : Nat) (hi : i < 4) : readByte t.nv (t.cfg.nvOffset + i) = some (byteOf u i) := by
    rw [h, hc, readByte_nvWrite, if_pos (by omega), Nat.add_sub_cancel_left, byteOf_eq_setWidth_shift]
  exact storeAnswer_of_stored (hread 0 (by decide)) (hread 1 (by decide)) (hread 2 (by decide)) (hread 3 (by decide))

theorem ready_powerOnReset (hwf : s.cfg.wf = true) : Ready (powerOnReset s) := by
  obtain ⟨hcopies, -⟩ := wf_bounds hwf
  exact ⟨hwf, countersInRange_iff.mpr ⟨cells_pos _, flen_pos _, hcopies, Nat.zero_le _, Nat.zero_le _⟩⟩

/-- A store that holds a word in the accumulator's range, its write completed, is what the boot after a reset loads. -/
theorem boot_loads_stored {u : BitVec 32} (hnv : t.nv = (nvWrite s u).nv) (hc : t.cfg = s.cfg) (hwf : t.cfg.wf = true)
    (hfl : t.nvInFlight = false) (hn : t.nvIn = []) (ht : answered t.nowIn = true) (hag : t.agenda = [.powerOn, .main])
    (hu : fge u 0x00000000#32 = true ∧ fle u Config.accMax = true) :
    ∃ v, runSteps 2 t = .next v ∧ v.acc = u ∧ v.wm = u ∧ v.seq = Seq.mMeas := by
  have hreset : step t = .next (powerOnReset (popAgenda t)) := step_powerOn (nextMove_cons _ _ hag)
  have hmain : (powerOnReset (popAgenda t)).agenda = [.main] := by simp [hag]
  have hnv' : (powerOnReset (popAgenda t)).nv = (nvWrite s u).nv := by simp [hfl, hnv]
  have hanswer : storeAnswer (powerOnReset (popAgenda t)) = _ := storeAnswer_of_nvWrite hnv' hc
  have hvalid : loadValid ⟨true, byteOf u 0, byteOf u 1, byteOf u 2, byteOf u 3⟩ = true := by
    rw [loadValid_iff, respPattern_leBytes]
    exact ⟨rfl, hu⟩
  have hvalue : loadValue (answerOr (storeAnswer (powerOnReset (popAgenda t))) t.nvIn) = u := by
    rw [hn, answerOr_nil, hanswer, loadValue, if_pos hvalid, respPattern_leBytes]
  have hanswered : answered t.nvIn = true := by rw [hn, answered_nil]
  have hboot := (step_of_main_cons rfl hmain).trans
    (exec_bLoad_of_answered (s := { powerOnReset (popAgenda t) with agenda := [] }) (ready_powerOnReset hwf)
      hanswered ht)
  exact ⟨_, (runSteps_succ hreset 1).trans (runSteps_one hboot), hvalue, hvalue, rfl⟩

/-- Settles O31: the write, its completion, and then the boot after a reset. -/
theorem persistedValueSurvivesReset : Obligations.PersistedValueSurvivesReset := by
  intro s hr hq hag hn ht hd hge hle
  have hwrite := (step_of_main_cons hq hag).trans
    (exec_pCheck_of_drifted (s := { s with agenda := [.nvDone, .powerOn, .main] }) hr hd)
  have hdone := step_nvDone (s := { nvWrite { s with agenda := [.nvDone, .powerOn, .main] } s.acc with
    wm := s.acc, didWrite := true, sleepCnt := 0#8, seq := Seq.sArm }) rfl
  obtain ⟨v, hrun, hv⟩ := boot_loads_stored (s := s) (u := s.acc)
    (t := nvComplete (popAgenda { nvWrite { s with agenda := [.nvDone, .powerOn, .main] } s.acc with
      wm := s.acc, didWrite := true, sleepCnt := 0#8, seq := Seq.sArm })) rfl rfl hr.1 rfl hn ht rfl ⟨hge, hle⟩
  exact ⟨v, (runSteps_succ hwrite 3).trans ((runSteps_succ hdone 2).trans hrun), hv⟩

end Sys2Proof.Machine
end

section
/-! The transmission (42_transmitter.md R180 to R185): half-cell by half-cell the bytes of a copy, copy by copy
`tx_trace`, as a run of `MAIN` that neither the agenda nor the wake flag meets. -/

namespace Sys2Proof.Machine

variable {s t u : State} {rest : List Move} {v : Byte} {k m n : Nat}

/-! ### Runs of the sending codes -/

/-- `n` steps of `MAIN`, each from `T_CELL` or `T_END`. -/
inductive SendRun : Nat → State → State → Prop
  | refl (s : State) : SendRun 0 s s
  | cons {n : Nat} {s u t : State} (hs : sending s) (h : exec (decodeSeq s.seq) s = .next u) (hrest : SendRun n u t) :
    SendRun (n + 1) s t

theorem SendRun.one (hs : sending s) (h : exec (decodeSeq s.seq) s = .next t) : SendRun 1 s t :=
  .cons hs h (.refl t)

theorem SendRun.cast (h : SendRun n s t) (ht : t = u) : SendRun n s u := ht ▸ h

theorem SendRun.trans (h : SendRun m s u) (h' : SendRun n u t) : SendRun (m + n) s t := by
  induction h with
  | refl s => rwa [Nat.zero_add]
  | cons hs he _ ih =>
    rw [Nat.add_right_comm]
    exact .cons hs he (ih h')

/-- A step of a sending code neither reads nor writes the agenda or the wake flag. -/
theorem exec_sending_withEnv {q : BitVec 4} (hs : q = Seq.tCell ∨ q = Seq.tEnd) (h : exec (decodeSeq q) s = .next t)
    (a : List Move) (w : Bool) :
    exec (decodeSeq q) { s with agenda := a, wakeFlag := w } = .next { t with agenda := a, wakeFlag := w } := by
  have hr := (ready_of_exec_decodeSeq h).2
  have hr' : Ready { s with agenda := a, wakeFlag := w } := hr
  rcases hs with rfl | rfl
  · change exec .tCell _ = _ at h
    cases hv : frameByte s s.txIdx.toNat with
    | none =>
      rw [exec_tCell_of_no_byte hr hv] at h
      cases h
    | some v =>
      rw [exec_tCell_closed hr hv] at h
      cases h
      exact exec_tCell_closed hr' hv
  · change exec .tEnd _ = _ at h
    rcases Nat.lt_or_ge (s.txRep.toNat + 1) s.cfg.copies with hc | hc
    · rw [exec_tEnd_further_copy hr hc] at h
      cases h
      exact exec_tEnd_further_copy hr' hc
    · rw [exec_tEnd_last_copy hr hc] at h
      cases h
      exact exec_tEnd_last_copy hr' hc

theorem SendRun.withEnv (h : SendRun n s t) (a : List Move) (w : Bool) :
    SendRun n { s with agenda := a, wakeFlag := w } { t with agenda := a, wakeFlag := w } := by
  induction h with
  | refl s => exact .refl _
  | cons hs he _ ih => exact .cons hs (exec_sending_withEnv hs he a w) ih

/-- With nothing scripted `MAIN` moves all the while. -/
theorem runSteps_of_sendRun (h : SendRun n s t) (ha : s.agenda = []) : runSteps n s = .next t := by
  induction h with
  | refl s => rfl
  | @cons n s u t hs he hrest ih =>
    have hmain : nextMove s = .main := by
      refine nextMove_nil ha (.inl ?_)
      rcases hs with hq | hq <;> rw [hq] <;> decide
    have hpop : popAgenda s = s := by rw [popAgenda, ha, List.tail_nil, ← ha]
    have hua : u.agenda = [] := by
      have henv := exec_sending_withEnv hs he [] s.wakeFlag
      have hsame : { s with agenda := [], wakeFlag := s.wakeFlag } = s := by rw [← ha]
      rw [hsame, he] at henv
      exact congrArg State.agenda (Host.Outcome.next.inj henv)
    rw [runSteps_succ (by rw [step_main hmain, hpop, he])]
    exact ih hua

/-- Expiries served at any points of the run set the wake flag and do nothing else. -/
theorem runSteps_of_sendRun_schedule {ms : List Move} (hwf : s.cfg.wf = true) (h : SendRun n s t)
    (ha : s.agenda = ms ++ rest) (hms : ∀ m ∈ ms, m = .main ∨ m = .expiry) (hn : ms.count .main = n) :
    runSteps ms.length s = .next { t with
      agenda := rest, wakeFlag := s.wakeFlag || decide (Move.expiry ∈ ms) } := by
  induction ms generalizing n s t with
  | nil =>
    subst hn
    cases h
    rw [List.nil_append] at ha
    simp [runSteps_zero, ← ha]
  | cons m ms ih =>
    have htail : ∀ m ∈ ms, m = .main ∨ m = .expiry := fun m hm => hms m (List.mem_cons_of_mem _ hm)
    rw [List.cons_append] at ha
    rcases hms m (List.mem_cons_self ..) with rfl | rfl
    · rw [List.count_cons_self] at hn
      subst hn
      cases h with
      | cons hs he hrest =>
        have hstep := (step_of_main_cons rfl ha).trans (exec_sending_withEnv hs he (ms ++ rest) s.wakeFlag)
        have hcfg := cfg_of_mainStep (mainStep_of_exec he)
        rw [List.length_cons, runSteps_succ hstep]
        refine Eq.trans (ih (by exact hcfg ▸ hwf) (hrest.withEnv (ms ++ rest) s.wakeFlag) rfl htail rfl) ?_
        simp
    · rw [List.count_cons_of_ne (by decide)] at hn
      rw [List.length_cons, runSteps_succ (step_of_expiry_cons hwf ha)]
      refine Eq.trans (ih (by exact hwf) (h.withEnv (ms ++ rest) true) rfl htail hn) ?_
      simp

end Sys2Proof.Machine
end

section
/-! The half-cells of a byte, of a copy and of a transmission (42_transmitter.md R180, R182, R184, R185): `T_CELL` by
`T_CELL` the line goes through the levels of the bytes selected, `T_END` idles it, and the whole is `tx_trace`. -/

namespace Sys2Proof.Machine

variable {s t u : State} {rest : List Move} {v : Byte} {k m n : Nat}

/-! ### Half-cells sent -/

/-- The state after half-cells have been sent, the position apart. -/
def sent (s : State) (ls : List Bool) : State :=
  { s with line := ls.getLastD s.line, trace := s.trace ++ ls.map Event.half }

theorem sent_nil (s : State) : sent s [] = s := by simp [sent]

theorem sent_sent (s : State) (as bs : List Bool) : sent (sent s as) bs = sent s (as ++ bs) := by
  have hdrive (s : State) (ls : List Bool) : sent s ls = driveAll s ls := (driveAll_eq s ls).symm
  rw [hdrive, hdrive, hdrive]
  induction as generalizing s with
  | nil => rfl
  | cons a as ih => exact ih (drive s a)

/-! ### A cell and a byte (R182, R183) -/

theorem SendRun.tCell (hq : s.seq = Seq.tCell) (h : exec .tCell s = .next t) : SendRun 1 s t := by
  refine .one (.inl hq) ?_
  rw [hq]
  exact h

theorem SendRun.tEnd (hq : s.seq = Seq.tEnd) (h : exec .tEnd s = .next t) : SendRun 1 s t := by
  refine .one (.inr hq) ?_
  rw [hq]
  exact h

/-- The two levels of a bit cell. -/
def cellPair (c : Cfg) (v : Byte) (k : Nat) : List Bool := [cellLevel c v k false, cellLevel c v k true]

theorem flatMap_cellPair (c : Cfg) (v : Byte) : (List.range (cells c)).flatMap (cellPair c v) = byteHalfcells c v :=
  cellLevelsAreTheHalfCells c v

/-- Both halves of a cell; what follows is the advance from its second half. -/
theorem sendRun_cell (hr : Ready s) (hq : s.seq = Seq.tCell) (hh : s.txHalf = false)
    (hv : frameByte s s.txIdx.toNat = some v) :
    SendRun 2 s (advance { sent s (cellPair s.cfg v s.txBit.toNat) with txHalf := true }) := by
  have hfirst := exec_tCell_of_frameByte hr hv
  rw [hh, advance_of_firstHalf (s := drive s _) hh] at hfirst
  have hsecond := exec_tCell_of_frameByte
    (s := { drive s (cellLevel s.cfg v s.txBit.toNat false) with txHalf := true }) hr hv
  have hpair : drive { drive s (cellLevel s.cfg v s.txBit.toNat false) with txHalf := true }
      (cellLevel s.cfg v s.txBit.toNat true) = { sent s (cellPair s.cfg v s.txBit.toNat) with txHalf := true } :=
    congrArg (fun t : State => { t with txHalf := true })
      (sent_sent s [cellLevel s.cfg v s.txBit.toNat false] [cellLevel s.cfg v s.txBit.toNat true])
  rw [← hpair]
  exact (SendRun.tCell hq hfirst).trans (.tCell hq hsecond)

theorem toNat_ofNat_of_lt {w : Nat} (h : m < 2 ^ w) : (BitVec.ofNat w m).toNat = m := by
  rw [BitVec.toNat_ofNat, Nat.mod_eq_of_lt h]

theorem ofNat_succ (w m : Nat) : BitVec.ofNat w m + 1#w = BitVec.ofNat w (m + 1) := (BitVec.ofNat_add ..).symm

/-- The state after the first `m` cells of a byte. -/
def afterCells (s : State) (v : Byte) (m : Nat) : State :=
  { sent s ((List.range m).flatMap (cellPair s.cfg v)) with txBit := BitVec.ofNat 4 m }

theorem toNat_afterCells_txBit (hm : m < cells s.cfg) : (afterCells s v m).txBit.toNat = m := by
  have hcells := cells_le_ten s.cfg
  exact toNat_ofNat_of_lt (by omega)

theorem ready_afterCells (hr : Ready s) (hm : m < cells s.cfg) : Ready (afterCells s v m) := by
  obtain ⟨-, hidx, hrep, hcnt, hplen⟩ := countersInRange_iff.mp hr.2
  exact ⟨hr.1, countersInRange_iff.mpr ⟨(toNat_afterCells_txBit hm).trans_lt hm, hidx, hrep, hcnt, hplen⟩⟩

/-- The levels of one more cell. -/
theorem sent_afterCells (hm : m < cells s.cfg) :
    sent (afterCells s v m) (cellPair s.cfg v (afterCells s v m).txBit.toNat)
      = { sent s ((List.range (m + 1)).flatMap (cellPair s.cfg v)) with txBit := BitVec.ofNat 4 m } := by
  rw [toNat_afterCells_txBit hm, List.range_succ, List.flatMap_append, List.flatMap_singleton, ← sent_sent]
  rfl

/-- The cell after the first `m`. -/
theorem sendRun_afterCells (hr : Ready s) (hq : s.seq = Seq.tCell) (hh : s.txHalf = false)
    (hv : frameByte s s.txIdx.toNat = some v) (hm : m < cells s.cfg) :
    SendRun 2 (afterCells s v m) (advance { sent s ((List.range (m + 1)).flatMap (cellPair s.cfg v)) with
      txBit := BitVec.ofNat 4 m, txHalf := true }) := by
  have hcell := sendRun_cell (s := afterCells s v m) (ready_afterCells hr hm) hq hh hv
  have hsent := congrArg (fun t : State => { t with txHalf := true }) (sent_afterCells (v := v) hm)
  exact hcell.cast (congrArg advance hsent)

theorem sendRun_cells (hr : Ready s) (hq : s.seq = Seq.tCell) (hb : s.txBit = 0#4) (hh : s.txHalf = false)
    (hv : frameByte s s.txIdx.toNat = some v) (hm : m < cells s.cfg) :
    SendRun (2 * m) s (afterCells s v m) := by
  induction m with
  | zero =>
    have hsame : afterCells s v 0 = s := by
      rw [afterCells, List.range_zero, List.flatMap_nil, sent_nil, ← hb]
    rw [hsame]
    exact .refl s
  | succ m ih =>
    have hlt : m < cells s.cfg := Nat.lt_of_succ_lt hm
    have hbit : (BitVec.ofNat 4 m).toNat = m := toNat_afterCells_txBit (v := v) hlt
    have hcell := sendRun_afterCells hr hq hh hv hlt
    rw [advance_within_byte (by rfl) (by exact hbit.symm ▸ hm)] at hcell
    have hstate : { sent s ((List.range (m + 1)).flatMap (cellPair s.cfg v)) with
        txBit := BitVec.ofNat 4 m + 1#4, txHalf := false } = afterCells s v (m + 1) := by
      rw [ofNat_succ, ← hh]
      rfl
    exact ((ih hlt).trans hcell).cast hstate

/-- All cells of a byte: the position goes to the next byte, or to the end of the copy. -/
theorem sendRun_byte (hr : Ready s) (hq : s.seq = Seq.tCell) (hb : s.txBit = 0#4) (hh : s.txHalf = false)
    (hv : frameByte s s.txIdx.toNat = some v) :
    SendRun (2 * cells s.cfg) s { sent s (byteHalfcells s.cfg v) with
      txIdx := if s.txIdx.toNat + 1 < flen s then s.txIdx + 1#10 else s.txIdx
      seq := if s.txIdx.toNat + 1 < flen s then Seq.tCell else Seq.tEnd } := by
  obtain ⟨m, hm⟩ := Nat.exists_eq_succ_of_ne_zero (cells_pos s.cfg).ne'
  obtain ⟨-, hidx, -⟩ := countersInRange_iff.mp hr.2
  have hlt : m < cells s.cfg := hm ▸ Nat.lt_succ_self m
  have hlast : (BitVec.ofNat 4 m).toNat + 1 = cells s.cfg :=
    (congrArg (· + 1) (toNat_afterCells_txBit (v := v) hlt)).trans hm.symm
  have hlevels : (List.range (m + 1)).flatMap (cellPair s.cfg v) = byteHalfcells s.cfg v := by
    rw [← flatMap_cellPair, hm]
  have hcell := sendRun_afterCells hr hq hh hv hlt
  rw [hlevels] at hcell
  have hrun := (sendRun_cells hr hq hb hh hv hlt).trans hcell
  rw [show 2 * m + 2 = 2 * cells s.cfg by omega] at hrun
  rcases Nat.lt_or_ge (s.txIdx.toNat + 1) (flen s) with hx | hx
  · rw [advance_to_next_byte (by rfl) (by exact hlast) (by exact hx)] at hrun
    rw [if_pos hx, if_pos hx]
    have hstate : { sent s (byteHalfcells s.cfg v) with
        txBit := 0#4, txHalf := false, txIdx := s.txIdx + 1#10 }
        = { sent s (byteHalfcells s.cfg v) with txIdx := s.txIdx + 1#10, seq := Seq.tCell } := by
      rw [← hb, ← hh, ← hq]
      rfl
    exact hrun.cast hstate
  · rw [advance_off_last_byte (by rfl) (by exact hlast) (by exact Nat.le_antisymm hidx hx)] at hrun
    rw [if_neg (Nat.not_lt.mpr hx), if_neg (Nat.not_lt.mpr hx)]
    have hstate : { sent s (byteHalfcells s.cfg v) with txBit := 0#4, txHalf := false, seq := Seq.tEnd }
        = { sent s (byteHalfcells s.cfg v) with txIdx := s.txIdx, seq := Seq.tEnd } := by
      rw [← hb, ← hh]
      rfl
    exact hrun.cast hstate

theorem getLastD_byteHalfcells (c : Cfg) (v : Byte) (a b : Bool) :
    (byteHalfcells c v).getLastD a = (byteHalfcells c v).getLastD b := by
  have hne : byteHalfcells c v ≠ [] := by
    obtain ⟨m, hm⟩ := Nat.exists_eq_succ_of_ne_zero (cells_pos c).ne'
    rw [← flatMap_cellPair, hm, List.range_succ, List.flatMap_append, List.flatMap_singleton]
    exact List.append_ne_nil_of_right_ne_nil _ (List.cons_ne_nil _ _)
  rw [List.getLastD_eq_getLast?, List.getLastD_eq_getLast?, List.getLast?_eq_some_getLast hne]
  rfl

/-- Settles O19: the cells of the byte, as steps with an empty agenda. -/
theorem stepsOfOneByteSendItsHalfCells : Obligations.StepsOfOneByteSendItsHalfCells := by
  intro s v hr ha hq hb hh hv
  rw [runSteps_of_sendRun (sendRun_byte hr hq hb hh hv) ha, getLastD_byteHalfcells s.cfg v false s.line]
  rfl

/-! ### A copy (R180, R182) -/

/-- The half-cells of the first `m` bytes of a copy. -/
def bytesHalfcells (s : State) (m : Nat) : List Bool :=
  (List.range m).flatMap fun i => (frameByte s i).elim [] (byteHalfcells s.cfg)

theorem copyTrace_eq (s : State) : copyTrace s = (bytesHalfcells s (flen s)).map Event.half := by
  rw [copyTrace, bytesHalfcells, List.map_flatMap]

theorem bytesHalfcells_succ (hv : frameByte s m = some v) :
    bytesHalfcells s (m + 1) = bytesHalfcells s m ++ byteHalfcells s.cfg v := by
  rw [bytesHalfcells, List.range_succ, List.flatMap_append, List.flatMap_singleton, hv]
  rfl

/-- The state after the first `m` bytes of a copy. -/
def afterBytes (s : State) (m : Nat) : State :=
  { sent s (bytesHalfcells s m) with txIdx := BitVec.ofNat 10 m }

theorem toNat_afterBytes_txIdx (hwf : s.cfg.wf = true) (hm : m < flen s) : (afterBytes s m).txIdx.toNat = m := by
  have hflen := flen_le hwf
  exact toNat_ofNat_of_lt (by omega)

theorem ready_afterBytes (hr : Ready s) (hm : m < flen s) : Ready (afterBytes s m) := by
  obtain ⟨hbit, -, hrep, hcnt, hplen⟩ := countersInRange_iff.mp hr.2
  exact ⟨hr.1, countersInRange_iff.mpr ⟨hbit, (toNat_afterBytes_txIdx hr.1 hm).trans_lt hm, hrep, hcnt, hplen⟩⟩

/-- The byte after the first `m`. -/
theorem sendRun_afterBytes (hr : Ready s) (hq : s.seq = Seq.tCell) (hb : s.txBit = 0#4) (hh : s.txHalf = false)
    (hbytes : ∀ i < flen s, ∃ v, frameByte s i = some v) (hm : m < flen s) :
    SendRun (2 * cells s.cfg) (afterBytes s m) { sent s (bytesHalfcells s (m + 1)) with
      txIdx := if m + 1 < flen s then BitVec.ofNat 10 m + 1#10 else BitVec.ofNat 10 m
      seq := if m + 1 < flen s then Seq.tCell else Seq.tEnd } := by
  obtain ⟨v, hv⟩ := hbytes m hm
  have hidx := toNat_afterBytes_txIdx hr.1 hm
  have hbyte := sendRun_byte (s := afterBytes s m) (v := v) (ready_afterBytes hr hm) hq hb hh (by rw [hidx]; exact hv)
  have hsent : sent (afterBytes s m) (byteHalfcells s.cfg v)
      = { sent s (bytesHalfcells s (m + 1)) with txIdx := BitVec.ofNat 10 m } := by
    rw [bytesHalfcells_succ hv, ← sent_sent]
    rfl
  have hstate := congrArg (fun t : State => { t with
    txIdx := if m + 1 < flen s then BitVec.ofNat 10 m + 1#10 else BitVec.ofNat 10 m
    seq := if m + 1 < flen s then Seq.tCell else Seq.tEnd }) hsent
  rw [hidx] at hbyte
  exact hbyte.cast hstate

theorem sendRun_bytes (hr : Ready s) (hq : s.seq = Seq.tCell) (hx : s.txIdx = 0#10) (hb : s.txBit = 0#4)
    (hh : s.txHalf = false) (hbytes : ∀ i < flen s, ∃ v, frameByte s i = some v) (hm : m < flen s) :
    SendRun (2 * cells s.cfg * m) s (afterBytes s m) := by
  induction m with
  | zero =>
    have hsame : afterBytes s 0 = s := by
      rw [afterBytes, bytesHalfcells, List.range_zero, List.flatMap_nil, sent_nil, ← hx]
    rw [hsame]
    exact .refl s
  | succ m ih =>
    have hlt : m < flen s := Nat.lt_of_succ_lt hm
    have hbyte := sendRun_afterBytes hr hq hb hh hbytes hlt
    rw [if_pos hm, if_pos hm, ofNat_succ, ← hq] at hbyte
    exact (ih hlt).trans hbyte

/-- All bytes of a copy, up to `T_END`. -/
theorem sendRun_copy (hr : Ready s) (hq : s.seq = Seq.tCell) (hx : s.txIdx = 0#10) (hb : s.txBit = 0#4)
    (hh : s.txHalf = false) (hbytes : ∀ i < flen s, ∃ v, frameByte s i = some v) :
    SendRun (2 * cells s.cfg * flen s) s { sent s (bytesHalfcells s (flen s)) with
      txIdx := BitVec.ofNat 10 (flen s - 1), seq := Seq.tEnd } := by
  obtain ⟨m, hm⟩ := Nat.exists_eq_succ_of_ne_zero (flen_pos s).ne'
  have hlt : m < flen s := hm ▸ Nat.lt_succ_self m
  have hbyte := sendRun_afterBytes hr hq hb hh hbytes hlt
  have hlast : ¬ m + 1 < flen s := by omega
  have hlen : m + 1 = flen s := hm.symm
  have hlastIdx : m = flen s - 1 := by omega
  rw [if_neg hlast, if_neg hlast, hlen] at hbyte
  have hrun := (sendRun_bytes hr hq hx hb hh hbytes hlt).trans hbyte
  rwa [← Nat.mul_add_one, hlen, hlastIdx] at hrun

/-! ### A transmission (R180, R184, R185) -/

/-- The counters as `T_END` finds them at the end of a copy. -/
theorem ready_copyEnd (hr : Ready s) (ls : List Bool) :
    Ready { sent s ls with txIdx := BitVec.ofNat 10 (flen s - 1), seq := Seq.tEnd } := by
  have hpos := flen_pos s
  have hflen := flen_le hr.1
  obtain ⟨hbit, -, hrep, hcnt, hplen⟩ := countersInRange_iff.mp hr.2
  have hidx : (BitVec.ofNat 10 (flen s - 1)).toNat = flen s - 1 := toNat_ofNat_of_lt (by omega)
  have hlt : (BitVec.ofNat 10 (flen s - 1)).toNat < flen s := by omega
  exact ⟨hr.1, countersInRange_iff.mpr ⟨hbit, hlt, hrep, hcnt, hplen⟩⟩

/-- A copy that another follows: its half-cells, `Idle` and `Guard`. -/
theorem sendRun_furtherCopy (hr : Ready s) (hq : s.seq = Seq.tCell) (hx : s.txIdx = 0#10) (hb : s.txBit = 0#4)
    (hh : s.txHalf = false) (hbytes : ∀ i < flen s, ∃ v, frameByte s i = some v)
    (hc : s.txRep.toNat + 1 < s.cfg.copies) :
    SendRun (2 * cells s.cfg * flen s + 1) s { s with
      line := false, trace := s.trace ++ (copyTrace s ++ [.idle, .guard]), txRep := s.txRep + 1#8 } := by
  have hend := exec_tEnd_further_copy (ready_copyEnd hr (bytesHalfcells s (flen s))) (by exact hc)
  refine ((sendRun_copy hr hq hx hb hh hbytes).trans (.tEnd rfl hend)).cast ?_
  rw [copyTrace_eq, ← List.append_assoc, ← hx, ← hb, ← hh, ← hq]
  rfl

theorem sendRun_lastCopy (hr : Ready s) (hq : s.seq = Seq.tCell) (hx : s.txIdx = 0#10) (hb : s.txBit = 0#4)
    (hh : s.txHalf = false) (hbytes : ∀ i < flen s, ∃ v, frameByte s i = some v)
    (hc : s.cfg.copies ≤ s.txRep.toNat + 1) :
    SendRun (2 * cells s.cfg * flen s + 1) s { s with
      line := false, trace := s.trace ++ (copyTrace s ++ [.idle]), txRep := 0#8, seq := Seq.pCheck } := by
  have hend := exec_tEnd_last_copy (ready_copyEnd hr (bytesHalfcells s (flen s))) (by exact hc)
  refine ((sendRun_copy hr hq hx hb hh hbytes).trans (.tEnd rfl hend)).cast ?_
  rw [copyTrace_eq, ← List.append_assoc, ← hx, ← hb, ← hh]
  rfl

/-- The copies that are still to come. -/
theorem sendRun_copies (hr : Ready s) (hq : s.seq = Seq.tCell) (hx : s.txIdx = 0#10) (hb : s.txBit = 0#4)
    (hh : s.txHalf = false) (hbytes : ∀ i < flen s, ∃ v, frameByte s i = some v)
    (hn : s.txRep.toNat + n + 1 = s.cfg.copies) :
    SendRun ((n + 1) * (2 * cells s.cfg * flen s + 1)) s { s with
      line := false
      trace := s.trace ++ (copyTrace s ++ [.idle]
        ++ (List.replicate n ([Event.guard] ++ copyTrace s ++ [Event.idle])).flatten)
      txRep := 0#8
      seq := Seq.pCheck } := by
  induction n generalizing s with
  | zero =>
    have hlast := sendRun_lastCopy hr hq hx hb hh hbytes (by omega)
    rw [Nat.zero_add, Nat.one_mul]
    refine hlast.cast ?_
    rw [List.replicate_zero, List.flatten_nil, List.append_nil]
  | succ n ih =>
    obtain ⟨-, hcopies, -⟩ := wf_bounds hr.1
    obtain ⟨hbit, hidx, -, hcnt, hplen⟩ := countersInRange_iff.mp hr.2
    have hrep : (s.txRep + 1#8).toNat = s.txRep.toNat + 1 := toNat_add_one (by omega)
    have hlt : (s.txRep + 1#8).toNat < s.cfg.copies := by omega
    have hr' : Ready { s with
        line := false, trace := s.trace ++ (copyTrace s ++ [.idle, .guard]), txRep := s.txRep + 1#8 } :=
      ⟨hr.1, countersInRange_iff.mpr ⟨hbit, hidx, hlt, hcnt, hplen⟩⟩
    have hrest := ih hr' hq hx hb hh hbytes (by change (s.txRep + 1#8).toNat + n + 1 = s.cfg.copies; omega)
    have hrun := (sendRun_furtherCopy hr hq hx hb hh hbytes (by omega)).trans hrest
    rw [show (n + 1 + 1) * (2 * cells s.cfg * flen s + 1)
      = 2 * cells s.cfg * flen s + 1 + (n + 1) * (2 * cells s.cfg * flen s + 1) by ring]
    refine hrun.cast ?_
    have htrace : s.trace ++ (copyTrace s ++ [.idle, .guard]) ++ (copyTrace s ++ [.idle]
        ++ (List.replicate n ([Event.guard] ++ copyTrace s ++ [Event.idle])).flatten)
        = s.trace ++ (copyTrace s ++ [.idle]
          ++ (List.replicate (n + 1) ([Event.guard] ++ copyTrace s ++ [Event.idle])).flatten) := by
      simp [List.replicate_succ]
    rw [← htrace]
    rfl

/-- The payload inside `pbuf` is what the first `plen` bytes of it are. -/
theorem holdsPayload_take (h : PayloadInBuffer s) : HoldsPayload s (s.pbuf.take s.plen.toNat) := by
  have hlen : (s.pbuf.take s.plen.toNat).length = s.plen.toNat := List.length_take_of_le h
  refine ⟨hlen.symm, fun i hi => ?_⟩
  rw [hlen] at hi
  exact (List.getElem?_take_of_lt hi).symm

theorem exists_frameByte_of_payloadInBuffer (h : PayloadInBuffer s) : ∀ i < flen s, ∃ v, frameByte s i = some v :=
  fun _ => exists_frameByte_of_holdsPayload (holdsPayload_take h)

/-- From the state `T_BUILD` leaves to `P_CHECK`. -/
theorem sendRun_transmission (hr : Ready s) (hp : PayloadInBuffer s) (hq : s.seq = Seq.tCell) (hrep : s.txRep = 0#8)
    (hx : s.txIdx = 0#10) (hb : s.txBit = 0#4) (hh : s.txHalf = false) :
    SendRun (txSteps s.cfg (flen s)) s { s with seq := Seq.pCheck, line := false, trace := s.trace ++ txTrace s } := by
  obtain ⟨hcopies, -⟩ := wf_bounds hr.1
  have hzero : s.txRep.toNat = 0 := by rw [hrep]; rfl
  have hrun := sendRun_copies (n := s.cfg.copies - 1) hr hq hx hb hh (exists_frameByte_of_payloadInBuffer hp) (by omega)
  rw [Nat.sub_add_cancel hcopies] at hrun
  refine hrun.cast ?_
  rw [txTrace, ← hrep]

/-- Settles O20: the run of the transmission, with an empty agenda. -/
theorem stepsEmitTheTransmission : Obligations.StepsEmitTheTransmission :=
  fun _ hr hp ha hq hrep hx hb hh => runSteps_of_sendRun (sendRun_transmission hr hp hq hrep hx hb hh) ha

/-- Settles O21: the same run, with expiries on the agenda between its steps. -/
theorem transmissionIgnoresExpiries : Obligations.TransmissionIgnoresExpiries := by
  intro s hr hp hq hrep hx hb hh hms hn
  exact runSteps_of_sendRun_schedule hr.1 (sendRun_transmission hr hp hq hrep hx hb hh) (List.append_nil _).symm hms hn

/-! ### Counting a transmission (R180, R188, R350) -/

theorem length_byteHalfcells (c : Cfg) (v : Byte) : (byteHalfcells c v).length = 2 * cells c := by
  rw [← flatMap_cellPair, List.length_flatMap]
  simp [cellPair, Nat.mul_comm]

theorem length_bytesHalfcells (h : PayloadInBuffer s) :
    (bytesHalfcells s (flen s)).length = 2 * cells s.cfg * flen s := by
  have hbyte : ∀ i ∈ List.range (flen s),
      ((frameByte s i).elim [] (byteHalfcells s.cfg)).length = 2 * cells s.cfg := by
    intro i hi
    obtain ⟨v, hv⟩ := exists_frameByte_of_payloadInBuffer h i (List.mem_range.mp hi)
    rw [hv]
    exact length_byteHalfcells s.cfg v
  rw [bytesHalfcells, List.length_flatMap, List.map_congr_left hbyte]
  simp [Nat.mul_comm]

theorem length_copyTrace (h : PayloadInBuffer s) : (copyTrace s).length = 2 * cells s.cfg * flen s := by
  rw [copyTrace_eq, List.length_map, length_bytesHalfcells h]

theorem exists_half_of_mem_copyTrace {e : Event} (h : e ∈ copyTrace s) : ∃ l, e = .half l := by
  rw [copyTrace_eq, List.mem_map] at h
  obtain ⟨l, -, rfl⟩ := h
  exact ⟨l, rfl⟩

/-- What is added up over the events of a transmission: a copy and its `Idle` each time, a `Guard` between two. -/
theorem sum_txTrace (f : Event → Nat) (h : 1 ≤ s.cfg.copies) :
    ((txTrace s).map f).sum = s.cfg.copies * (((copyTrace s).map f).sum + f .idle) + (s.cfg.copies - 1) * f .guard := by
  obtain ⟨n, hn⟩ := Nat.exists_eq_add_of_le' h
  rw [txTrace, hn, Nat.add_sub_cancel]
  simp only [List.map_append, List.sum_append, List.map_flatten, List.sum_flatten, List.map_replicate,
    List.sum_replicate, List.map_cons, List.map_nil, List.sum_cons, List.sum_nil, smul_eq_mul]
  ring

/-- Where every half-cell adds the same. -/
theorem sum_copyTrace {f : Event → Nat} {w : Nat} (hf : ∀ l, f (.half l) = w) (h : PayloadInBuffer s) :
    ((copyTrace s).map f).sum = 2 * cells s.cfg * flen s * w := by
  have hconst : (copyTrace s).map f = List.replicate (copyTrace s).length w := by
    rw [List.eq_replicate_iff]
    refine ⟨List.length_map .., fun x hx => ?_⟩
    obtain ⟨e, he, rfl⟩ := List.mem_map.mp hx
    obtain ⟨l, rfl⟩ := exists_half_of_mem_copyTrace he
    exact hf l
  rw [hconst, List.sum_replicate, length_copyTrace h, smul_eq_mul]

theorem countP_eq_sum (p : Event → Bool) (es : List Event) : es.countP p = (es.map fun e => (p e).toNat).sum := by
  induction es with
  | nil => rfl
  | cons e es ih =>
    rw [List.countP_cons, List.map_cons, List.sum_cons, ← ih]
    cases p e <;> simp [Nat.add_comm]

/-- Settles O22: each count is a sum of ones over the events counted. -/
theorem transmissionEventCounts : Obligations.TransmissionEventCounts := by
  intro s hwf hp
  obtain ⟨hcopies, -⟩ := wf_bounds hwf
  have hcount (p : Event → Bool) (w : Nat) (hw : ∀ l, (p (.half l)).toNat = w) :
      (txTrace s).countP p = s.cfg.copies * (2 * cells s.cfg * flen s * w + (p .idle).toNat)
        + (s.cfg.copies - 1) * (p .guard).toNat := by
    rw [countP_eq_sum, sum_txTrace _ hcopies, sum_copyTrace hw hp]
  refine ⟨?halves, ?idles, ?guards, ?all⟩
  case halves =>
    rw [hcount _ 1 (by decide)]
    simp
  case idles =>
    rw [List.count, hcount _ 0 (by decide)]
    simp
  case guards =>
    rw [List.count, hcount _ 0 (by decide)]
    simp
  case all =>
    have hlen := hcount (fun _ => true) 1 (fun _ => rfl)
    rw [List.countP_true] at hlen
    rw [hlen, Bool.toNat_true, Nat.mul_one, Nat.mul_one, Nat.mul_add]
    omega

/-- Settles O23: eight cells a byte of two half-cells each, and `FLEN` for 21 payload bytes. -/
theorem transmissionDuration : Obligations.TransmissionDuration := by
  intro s hwf hp hplen hprof
  obtain ⟨hcopies, -⟩ := wf_bounds hwf
  have hflen : flen s = s.cfg.k + 27 := by
    rw [flen_of_manchFramed hprof, hplen]
    rfl
  have hcells : cells s.cfg = 8 := by simp only [cells, hprof]
  have hidle : Event.twiceDuration s.cfg .idle = 0 := rfl
  have hguard : Event.twiceDuration s.cfg .guard = 2 * s.cfg.guardTime := rfl
  rw [sum_txTrace _ hcopies, sum_copyTrace (w := s.cfg.bitPeriod) (fun _ => rfl) hp, hflen, hcells, hidle, hguard]
  ring

end Sys2Proof.Machine
end

section
/-! The normal cycle (44_scheduler.md R233): measure, integrate, find the gate open and build the frame; transmit it;
compare with the watermark; sleep. One lemma per part, each about the registers the next one needs. -/

namespace Sys2Proof.Machine

variable {s t u : State} {rest : List Move} {n : Nat}

theorem Inv.runSteps (hi : Inv s) (h : runSteps n s = .next t) : Inv t := by
  induction n generalizing s with
  | zero =>
    cases h
    exact hi
  | succ n ih =>
    obtain ⟨u, hu⟩ := invariantStatesNeverStop s hi
    rw [runSteps_succ hu] at h
    exact ih (stepKeepsTheInvariant s u hi hu) h

/-! ### The registers that `tx_trace` reads -/

/-- The configuration and the frame source are the same. -/
structure SameFrame (s t : State) : Prop where
  cfg : t.cfg = s.cfg
  plen : t.plen = s.plen
  pbuf : t.pbuf = s.pbuf
  crcReg : t.crcReg = s.crcReg

theorem SameFrame.txTrace_eq (h : SameFrame s t) : txTrace t = txTrace s := by
  obtain ⟨hcfg, hplen, hpbuf, hcrc⟩ := h
  have hflen : flen t = flen s := by rw [flen, flen, hcfg, hplen]
  have hbyte : frameByte t = frameByte s := by
    funext i
    simp only [frameByte, payloadByte, hcfg, hplen, hpbuf, hcrc]
  rw [txTrace, txTrace, copyTrace, copyTrace, hflen, hbyte, hcfg]

/-! ### The parts of the cycle -/

theorem step_mGate_of_not_undervolted (hr : Ready s) (hq : s.seq = Seq.mGate) (hu : undervolted s = false)
    (h : s.agenda = .main :: rest) :
    step s = .next { s with uv := false, seq := Seq.tBuild, agenda := rest } := by
  rw [step_of_main_cons hq h]
  exact exec_mGate_of_not_undervolted (s := { s with agenda := rest }) hr hu

theorem step_tBuild (hr : Ready s) (hq : s.seq = Seq.tBuild) (h : s.agenda = .main :: rest) :
    step s = .next { layPayload { s with agenda := rest } (builtPayload s) with
      crcReg := crc16 (builtPayload s), txRep := 0#8, txIdx := 0#10, txBit := 0#4, txHalf := false
      seq := Seq.tCell } := by
  rw [step_of_main_cons hq h]
  exact exec_tBuild_of_ready (s := { s with agenda := rest }) hr

/-- From the measurement to the frame: four steps, one event. -/
theorem runSteps_to_tCell {r : MeasResp} {q : List (Option MeasResp)} (hr : Ready s) (hq : s.seq = Seq.mMeas)
    (hm : s.measIn = some r :: q) (hu : flt r.vbat s.cfg.vbatFloor = false) (ha : answered s.nowIn = true)
    (h : s.agenda = List.replicate 4 .main ++ rest) :
    ∃ u, runSteps 4 s = .next u ∧ u.seq = Seq.tCell ∧ u.cfg = s.cfg ∧ u.plen = 21#8
      ∧ (u.txRep = 0#8 ∧ u.txIdx = 0#10 ∧ u.txBit = 0#4 ∧ u.txHalf = false)
      ∧ u.trace = s.trace ++ [.measReq] ∧ u.agenda = rest := by
  apply Exists.intro
  constructor
  · refine Eq.trans (runSteps_succ (step_mMeas_scripted hr hq hm h) 3) ?_
    refine Eq.trans (runSteps_succ (step_mInteg_of_answered (by exact hr) rfl (by exact ha) rfl) _) ?_
    refine Eq.trans (runSteps_succ (step_mGate_of_not_undervolted (by exact hr) rfl (by exact hu) rfl) _) ?_
    exact runSteps_one (step_tBuild (by exact hr) rfl rfl)
  · exact ⟨rfl, rfl, rfl, ⟨rfl, rfl, rfl, rfl⟩, rfl, rfl⟩

/-- The transmission with nothing but moves of `MAIN`. -/
theorem runSteps_transmission (hi : Inv s) (hq : s.seq = Seq.tCell)
    (hpos : s.txRep = 0#8 ∧ s.txIdx = 0#10 ∧ s.txBit = 0#4 ∧ s.txHalf = false)
    (h : s.agenda = List.replicate (txSteps s.cfg (flen s)) .main ++ rest) :
    runSteps (txSteps s.cfg (flen s)) s = .next { s with
      seq := Seq.pCheck, line := false, trace := s.trace ++ txTrace s, agenda := rest } := by
  obtain ⟨hrep, hidx, hbit, hhalf⟩ := hpos
  obtain ⟨-, -, -, -, hplen⟩ := countersInRange_iff.mp hi.inRange
  have hp : PayloadInBuffer s := hplen.trans_eq hi.bufferWhole.symm
  have hrun := runSteps_of_sendRun_schedule hi.cfgWf (sendRun_transmission hi.ready hp hq hrep hidx hbit hhalf) h
    (fun m hm => .inl (List.eq_of_mem_replicate hm)) List.count_replicate_self
  have hnoExpiry : Move.expiry ∉ List.replicate (txSteps s.cfg (flen s)) Move.main :=
    fun hm => Move.noConfusion (List.eq_of_mem_replicate hm)
  rw [List.length_replicate, decide_eq_false hnoExpiry, Bool.or_false] at hrun
  exact hrun

/-- `NvWr` of the accumulator exactly where `did_write` becomes 1. -/
theorem step_pCheck (hr : Ready s) (hq : s.seq = Seq.pCheck) (h : s.agenda = .main :: rest) :
    ∃ u, step s = .next u ∧ u.seq = Seq.sArm ∧ u.sleepCnt = 0#8 ∧ SameFrame s u ∧ u.agenda = rest
      ∧ u.trace = s.trace ++ (if u.didWrite then [Event.nvWr s.cfg.nvOffset (byteOf u.acc 0) (byteOf u.acc 1)
          (byteOf u.acc 2) (byteOf u.acc 3)] else []) := by
  rw [step_of_main_cons hq h]
  cases hd : drifted s with
  | true =>
    exact ⟨_, exec_pCheck_of_drifted (s := { s with agenda := rest }) hr hd, rfl, rfl, ⟨rfl, rfl, rfl, rfl⟩, rfl,
      rfl⟩
  | false =>
    exact ⟨_, exec_pCheck_of_not_drifted (s := { s with agenda := rest }) hr hd, rfl, rfl, ⟨rfl, rfl, rfl, rfl⟩,
      rfl, (List.append_nil _).symm⟩

theorem flen_eq_flen21 (h : s.plen = 21#8) : flen s = flen21 s.cfg := by
  cases hp : s.cfg.profile <;> simp only [flen, flen21, hp, h] <;> rfl

/-- Settles O38: the four parts one after another; after `T_BUILD` no register of the frame changes. -/
theorem normalCycle : Obligations.NormalCycle := by
  intro s r q ab hi hq hm hu ha hlen h
  obtain ⟨-, -, hpos, -⟩ := wf_bounds hi.cfgWf
  have hne : ab ≠ [] := List.ne_nil_of_length_pos (hlen ▸ hpos)
  have hsteps : s.agenda.length = 4 + (txSteps s.cfg (flen21 s.cfg) + ((ab.flatMap intervalMoves).length + 1)) := by
    rw [h, List.length_append, List.length_replicate]
    omega
  have hagenda : s.agenda = List.replicate 4 .main
      ++ (List.replicate (txSteps s.cfg (flen21 s.cfg)) .main ++ .main :: ab.flatMap intervalMoves) := by
    rw [h, show 5 + txSteps s.cfg (flen21 s.cfg) = 4 + (txSteps s.cfg (flen21 s.cfg) + 1) by omega, List.replicate_add,
      List.replicate_add]
    simp
  obtain ⟨b, hb, hbSeq, hbCfg, hbPlen, hbPos, hbTrace, hbAgenda⟩ := runSteps_to_tCell hi.ready hq hm hu ha hagenda
  have hib := hi.runSteps hb
  rw [← hbCfg, ← flen_eq_flen21 hbPlen] at hbAgenda
  have hc := runSteps_transmission hib hbSeq hbPos hbAgenda
  have hic := hib.runSteps hc
  obtain ⟨p, hp, hpSeq, hpCnt, hpFrame, hpAgenda, hpTrace⟩ := step_pCheck hic.ready rfl rfl
  have hip := stepKeepsTheInvariant _ p hic hp
  have hpCfg : p.cfg = s.cfg := hpFrame.cfg.trans hbCfg
  have hsleep := runSteps_intervals (rest := []) hip.ready hpSeq hne
    (by rw [hpCnt, hpCfg, hlen]; exact Nat.zero_add _) (by rw [hpAgenda, List.append_nil])
  have hrun := (runSteps_add hb _).trans ((runSteps_add hc _).trans ((runSteps_succ hp _).trans hsleep))
  have hframe : txTrace p = txTrace b := hpFrame.txTrace_eq
  rw [hsteps, ← hbCfg, ← flen_eq_flen21 hbPlen]
  refine ⟨_, hrun, rfl, hpFrame.plen.trans hbPlen, ?_⟩
  change p.trace ++ _ = s.trace ++ [.measReq] ++ txTrace p ++ _ ++ _
  rw [hframe, hpTrace, hbTrace, hlen, sleepEvents, ← hbCfg]

end Sys2Proof.Machine
end
